-- ==== Sys2Proof/Word.lean ====
section
/-! DEFINITION. The word types of the HN-2416: the byte of the campus line and the 16 bit word of its headers. -/

namespace Sys2Proof

/-- One byte of the campus line (Chapter 11: frames and records are sent byte by byte). -/
abbrev Byte := BitVec 8

/-- A 16 bit field of a header, a day count D (0..65,535, taken modulo 65,536) or a drill id. -/
abbrev Word16 := BitVec 16

/-- A local µs count: the 32 bit free-running count of the Conventions. -/
abbrev Word32 := BitVec 32

end Sys2Proof
end

