-- ==== Sys2Proof/Syntax.lean ====
section
/-! DEFINITION. The commands of the HN-2416: one constructor of Instr for each row of spec/opcode_table.json. A command is a
frame or code group at a line port, a level change at a pin, or the expiry of one of the node's own timers. -/

namespace Sys2Proof

/-- The two line ports: UP toward the head-end, DOWN toward the next building. -/
inductive PortId where
  | up
  | down
deriving DecidableEq, Repr

/-- The header fields of a received frame that its row does not fix (R194), and its port of arrival. The Kind is given by
the row and the Length by the payload. -/
structure Hdr where
  port : PortId
  hops : Byte
  sel  : Word16
  mask : Word16
  tag  : Byte
deriving DecidableEq, Repr

/-- The two schedule banks (R59). -/
inductive Bank where
  | a
  | b
deriving DecidableEq, Repr

/-- What holds the node in reset (R191). -/
inductive ResetCause where
  | pin
  | power
deriving DecidableEq, Repr

/-- A LINE_RESET as it is taken. `lossFirst`: a loss of the UP signal comes together with its receipt and is taken first
(R192). -/
structure LineResetFrame where
  hdr       : Hdr
  lossFirst : Bool
deriving DecidableEq, Repr

/-- The levels read at the release of reset: the HOLD key (R174), and whether the backup supply is present (R190). -/
structure ResetLevels where
  holdDown : Bool
  supply   : Bool
deriving DecidableEq, Repr

/-- Where a tone pattern is being played: on a local output by its winner, or as the chime of a page call (R94). -/
inductive TonePlayer where
  | output (o : Fin 24)
  | chime (r : Fin 8)
deriving DecidableEq, Repr

/-- The commands. `dt` is the local time in µs that has passed since the command before. Received frames carry their
header and their payload bytes, or the fields of their request. -/
inductive Instr where
  /- Line events, Chapter 2 -/
  | lineSignalPresent (dt : Nat) (p : PortId)
  | debounceTimerExpiry (dt : Nat) (p : PortId)
  | trainingCodeGroup (dt : Nat) (p : PortId)
  | trainingTimerExpiry (dt : Nat) (p : PortId)
  | lineSignalLostInAttach (dt : Nat) (p : PortId)
  | lineSignalLost (dt : Nat) (p : PortId)
  | codeViolationInFrame (dt : Nat) (p : PortId)
  | frameOverlength (dt : Nat) (p : PortId)
  /-- `bytes`: all bytes received between the delimiters, the CRC included. -/
  | frameCheckFailed (dt : Nat) (p : PortId) (bytes : List Byte)
  /- Line frames, Chapter 2 and Chapter 11 -/
  /-- `lag`: the local µs from the receipt to the application of a step (R12). `fdcFirst`: the FDC takes the time event
  before the BS, else after it (R66). -/
  | time (dt : Nat) (h : Hdr) (payload : List Byte) (lag : Word32) (fdcFirst : Bool)
  | audio (dt : Nat) (h : Hdr) (payload : List Byte)
  | pageOpen (dt : Nat) (h : Hdr) (payload : List Byte)
  | pageClose (dt : Nat) (h : Hdr) (payload : List Byte)
  | bellNow (dt : Nat) (h : Hdr) (payload : List Byte)
  | select (dt : Nat) (h : Hdr) (payload : List Byte)
  /-- `rest`: the payload bytes after the command byte (R195). -/
  | drillStart (dt : Nat) (h : Hdr) (rest : List Byte)
  | drillAbort (dt : Nat) (h : Hdr) (rest : List Byte)
  | drillAllClear (dt : Nat) (h : Hdr) (rest : List Byte)
  | mgmtRpl (dt : Nat) (h : Hdr) (payload : List Byte)
  | notice (dt : Nat) (h : Hdr) (payload : List Byte)
  | echoReq (dt : Nat) (h : Hdr) (payload : List Byte)
  | echoRpl (dt : Nat) (h : Hdr) (payload : List Byte)
  | unknownKind (dt : Nat) (h : Hdr) (kind : Byte) (payload : List Byte)
  | transmitStart (dt : Nat) (p : PortId)
  | frameTransmitEnd (dt : Nat) (p : PortId)
  /- Campus time, Chapter 1 -/
  /-- The passage of u from 999 to 0. `fdcFirst` as for `time`. -/
  | localTick (fdcFirst : Bool)
  | timeTimeoutExpiry (dt : Nat)
  | echoPeriodExpiry (dt : Nat)
  | echoReplyTimeout (dt : Nat)
  | backupCounterSecond (dt : Nat)
  /- Claims, tones and pages, Chapters 5 and 6 -/
  | bellClaimExpiry (dt : Nat) (o : Fin 24)
  | tonePhaseEnd (dt : Nat) (w : TonePlayer)
  | chimeEnd (dt : Nat) (r : Fin 8)
  | frameClockTick (dt : Nat)
  | silenceTimerExpiry (dt : Nat) (r : Fin 8)
  /- Clock lines and supervision, Chapters 7 and 8 -/
  | pulseMidCheck (dt : Nat) (k : Fin 8) (reading : Byte)
  | pulseEnd (dt : Nat) (k : Fin 8)
  | gapWaitEnd (dt : Nat) (k : Fin 8)
  | dwellEnd (dt : Nat) (reading : Byte)
  /- Fire and drills, Chapter 9 -/
  | fireCheck (dt : Nat) (reading : Byte)
  | preAlertEnd (dt : Nat)
  | evacuateEnd (dt : Nat)
  | holdLimitExpiry (dt : Nat)
  | allClearPhaseEnd (dt : Nat)
  | drillProgress (dt : Nat)
  | holdKeyPress (dt : Nat)
  | sweepPress (dt : Nat) (i : Fin 8)
  /- Management, Chapter 10 -/
  | unassignedTimerExpiry (dt : Nat)
  | ping (dt : Nat) (h : Hdr)
  | setAddr (dt : Nat) (h : Hdr) (addr : Word16)
  | readTable (dt : Nat) (h : Hdr) (space : Byte) (start : Word16) (count : Byte) (clear : Byte)
  /-- `data`: the record bytes of the WRITE_TABLE, whole. -/
  | writeSched (dt : Nat) (h : Hdr) (bank : Bank) (start : Word16) (count : Byte) (data : List Byte)
  | writeCalendar (dt : Nat) (h : Hdr) (start : Word16) (count : Byte) (data : List Byte)
  | writeWeekplan (dt : Nat) (h : Hdr) (start : Word16) (count : Byte) (data : List Byte)
  | writeWindows (dt : Nat) (h : Hdr) (start : Word16) (count : Byte) (data : List Byte)
  | writeZoneattr (dt : Nat) (h : Hdr) (start : Word16) (count : Byte) (data : List Byte)
  | writeTones (dt : Nat) (h : Hdr) (start : Word16) (count : Byte) (data : List Byte)
  | writeClockcfg (dt : Nat) (h : Hdr) (start : Word16) (count : Byte) (data : List Byte)
  | writeSupcfg (dt : Nat) (h : Hdr) (start : Word16) (count : Byte) (data : List Byte)
  | writeDrillprog (dt : Nat) (h : Hdr) (start : Word16) (count : Byte) (data : List Byte)
  | writeNodecfg (dt : Nat) (h : Hdr) (start : Word16) (count : Byte) (data : List Byte)
  | activateBank (dt : Nat) (h : Hdr)
  | readStatus (dt : Nat) (h : Hdr)
  | resyncClock (dt : Nat) (h : Hdr) (line : Byte) (position : Word16) (polarity : Byte)
  | recoverCircuit (dt : Nat) (h : Hdr) (circuit : Byte)
  | forceOn (dt : Nat) (h : Hdr) (output : Byte)
  | forceOff (dt : Nat) (h : Hdr) (output : Byte)
  | forceRelease (dt : Nat) (h : Hdr) (output : Byte)
  | saveImage (dt : Nat) (h : Hdr)
  | saveComplete (dt : Nat)
  | lineReset (dt : Nat) (frame : LineResetFrame)
  /-- A MGMT_REQ payload that names no request or does not hold the arguments of the request it names. -/
  | unknownRequest (dt : Nat) (h : Hdr) (payload : List Byte)
  | resetHeld (dt : Nat) (cause : ResetCause)
  /-- `sweepDown`: the sweep levels read at the reset (R174); bit n is SWn. -/
  | fullReset (dt : Nat) (levels : ResetLevels) (sweepDown : Byte)
  | frameStartDelimiter (dt : Nat) (p : PortId)
  | backupSupplyLoss (dt : Nat)
  /-- `payload`: a DRILL payload whose first byte is none of the three commands, or absent. -/
  | drillBadCommand (dt : Nat) (h : Hdr) (payload : List Byte)
  | writeTableBadSpace (dt : Nat) (h : Hdr) (space : Byte) (start : Word16) (count : Byte) (data : List Byte)
deriving DecidableEq, Repr

end Sys2Proof
end

