-- ==== Sys2Proof/Decode.lean ====
section
/-! DEFINITION. The decoding of a table word. No row of spec/opcode_table.json gives bits: a command is an event or a frame,
told apart by what happens and not by a word. -/

namespace Sys2Proof

/-- The command that a word spells by the table's bits: none, since no row gives bits. -/
def decodeTableWord (_nbits _w : Nat) : Option Instr := none

end Sys2Proof
end

