-- ==== Sys2Proof/Machine/Bytes.lean ====
section
/-! DEFINITION. Reading and writing the multi-byte fields of Chapter 11 (most significant byte first), the CRC of R194, and
the rounding of the Conventions. -/

namespace Sys2Proof.Machine

/-- The byte at an offset, 0 beyond the end. -/
def byteAt (l : List Byte) (i : Nat) : Byte := l.getD i 0

/-- The 2-byte field at an offset. -/
def word16At (l : List Byte) (i : Nat) : Word16 := byteAt l i ++ byteAt l (i + 1)

/-- The 4-byte field at an offset. -/
def word32At (l : List Byte) (i : Nat) : Word32 := word16At l i ++ word16At l (i + 2)

/-- One byte. -/
def enc8 (n : Nat) : List Byte := [BitVec.ofNat 8 n]

/-- Two bytes, high first. -/
def enc16 (n : Nat) : List Byte := [BitVec.ofNat 8 (n / 256), BitVec.ofNat 8 n]

/-- Three bytes, high first. -/
def enc24 (n : Nat) : List Byte := [BitVec.ofNat 8 (n / 65536), BitVec.ofNat 8 (n / 256), BitVec.ofNat 8 n]

/-- Four bytes, high first. -/
def enc32 (n : Nat) : List Byte :=
  [BitVec.ofNat 8 (n / 16777216), BitVec.ofNat 8 (n / 65536), BitVec.ofNat 8 (n / 256), BitVec.ofNat 8 n]

/-- The value of a flag bit given as a Bool. -/
def flagBit (b : Bool) (i : Nat) : Nat := if b then 2 ^ i else 0

/-- Zero bytes up to a length. -/
def padTo (n : Nat) (l : List Byte) : List Byte := l ++ List.replicate (n - l.length) 0

/-- R194: one shift of the CRC register. -/
def crcShift (r : Word16) : Word16 := if r.msb then (r <<< 1) ^^^ 0x8005 else r <<< 1

/-- R194: one byte into the CRC register. -/
def crcByte (r : Word16) (b : Byte) : Word16 :=
  (List.range 8).foldl (fun r _ => crcShift r) (r ^^^ (b ++ (0 : Byte)))

/-- R194: the CRC over header and payload. -/
def crc (l : List Byte) : Word16 := l.foldl crcByte 0xFFFF

/-- The check a frame fails first (R26). -/
inductive CheckFailure where
  | length
  | crc
deriving DecidableEq, Repr

/-- R26: the length check, then the CRC check, over all the bytes received; none is an intact frame. -/
def checkFailure (bytes : List Byte) : Option CheckFailure :=
  let len := (byteAt bytes 7).toNat
  if bytes.length < 10 ∨ 240 < len ∨ 8 + len + 2 ≠ bytes.length then some .length
  else if crc (bytes.take (8 + len)) ≠ word16At bytes (8 + len) then some .crc
  else none

/-- R25, R26: a frame of at most 250 bytes that fails a check. -/
def failsCheck (bytes : List Byte) : Bool := decide (bytes.length ≤ 250) && (checkFailure bytes).isSome

/-- R196: the payload of a MGMT_REQ holds the arguments of the request its code names. A FORCE_OUTPUT whose action is none
of the three is counted with those that do not. -/
def holdsRequest (payload : List Byte) : Bool :=
  let c := (byteAt payload 0).toNat
  let n := payload.length
  if n = 0 then false
  else if c = 1 ∨ c = 5 ∨ c = 6 ∨ c = 10 ∨ c = 11 then decide (n = 1)
  else if c = 2 then decide (n = 3)
  else if c = 3 then decide (n = 6)
  else if c = 4 then decide (5 ≤ n)
  else if c = 7 then decide (n = 5)
  else if c = 8 then decide (n = 2)
  else if c = 9 then decide (n = 3) && decide (1 ≤ (byteAt payload 2).toNat) && decide ((byteAt payload 2).toNat ≤ 3)
  else false

/-- The kinds of R194's table. -/
def knownKinds : List Byte := [0x01, 0x02, 0x03, 0x04, 0x05, 0x06, 0x07, 0x08, 0x41, 0x42, 0x81, 0x82]

/-- R194: a payload that a frame can carry, at most 240 bytes. -/
def fits (payload : List Byte) : Bool := decide (payload.length ≤ 240)

/-- R161, R195: a DRILL payload whose command is none of the three. -/
def badDrillCommand (payload : List Byte) : Bool :=
  decide ((byteAt payload 0).toNat = 0 ∨ 3 < (byteAt payload 0).toNat ∨ payload = [])

/-- Conventions, "Rounding": n / d rounded to nearest, halves away from zero. -/
def roundHalfAway (n : Int) (d : Nat) : Int :=
  let q : Nat := (2 * n.natAbs + d) / (2 * d)
  if n < 0 then -(q : Int) else q

/-- A value clamped to a range (Conventions). -/
def clampInt (lo hi x : Int) : Int := if x < lo then lo else if hi < x then hi else x

/-- Conventions: a 16 bit counter saturates at 65,535. -/
def saturate16 (n : Nat) : Nat := min 65535 n

end Sys2Proof.Machine
end

