-- ==== Sys2Proof/Config.lean ====
section
/-! DEFINITION. What is fixed for the part: the figures of "Capacities and limits" and of the rules that own them,
and the free values, opaque constants that stand for a value the manual leaves open. -/

namespace Sys2Proof.Config

/-! ## Times of the local oscillator, in µs -/

/-- R22: the debounce timer, 60 ms. -/
def debounceUs : Nat := 60000
/-- R22: the training timer, 300 ms. -/
def trainingUs : Nat := 300000
/-- R14: the TIME timeout, 5,000 ms. -/
def timeTimeoutUs : Nat := 5000000
/-- R15: the echo period, 16 s. -/
def echoPeriodUs : Nat := 16000000
/-- R15: the reply timer of the echo measurement, 100 ms. -/
def echoReplyUs : Nat := 100000
/-- R107: the frame clock, every 40 periods of the 8 kHz sample clock, 5 ms. -/
def frameClockUs : Nat := 5000
/-- The sample clock of the Timebase: 8,000 samples per second, 125 µs each. -/
def sampleUs : Nat := 125
/-- R112: the silence timer of a call, 2 s. -/
def silenceUs : Nat := 2000000
/-- R154: the FIRE check interval, 100 ms. -/
def fireCheckUs : Nat := 100000
/-- R170: a progress notice every 10 s of run time. -/
def progressUs : Nat := 10000000
/-- R183: the unassigned timer, 5 s. -/
def unassignedUs : Nat := 5000000
/-- R169: a key is debounced over 50 ms. -/
def keyUs : Nat := 50000
/-- 2.2: one byte of a frame occupies 2 µs on the line, and so does each delimiter. -/
def byteUs : Nat := 2

/-! ## Campus time -/

/-- Milliseconds of a day: T is taken modulo this number (R3). -/
def dayMs : Nat := 86400000
/-- Microseconds of a day (R9). -/
def dayUs : Nat := 86400000000

/-! ## Identity of the part (R196) -/

/-- R196: the family code of the PING reply. -/
def family : Byte := 0x2A
/-- R196: the revision number of the PING reply. -/
def revision : Byte := 3

/-! ## Free values: the manual gives a place to a value and does not state the value -/

/-- FREE VALUE. The byte at a given offset of a reply or notice where the layout has a place and the manual states no
value for it (the drill id sent while no drill is held, the channel of a free page record, ...). The first argument
numbers the draw, the second the offset in the payload's results or arguments. Notes: assumption log 4. -/
opaque unusedByte : Nat → Nat → Byte

/-- FREE VALUE. How many visits the scan skips between two commands while every enabled circuit is driven (R142 gives the
skips no duration). The argument numbers the draw. Notes: assumption log 5. -/
opaque skipsWhileAllDriven : Nat → Nat

/-- FREE VALUE. The level of an indicator line while the node is held in reset (R186 and R191 do not give one): the
argument is true for IND_B. Notes: assumption log 6. -/
opaque indicatorWhileHeld : Bool → Bool

/-- FREE VALUE. Whether the program field of a DRILLRES record without a program reads as 0 or as 0xFF: R197 gives both, the
one in its list of fields not used and the other in its table. Notes: assumption log 17. -/
opaque programReadsZero : Bool

/-- FREE VALUE. The 2 bytes that carry a correction count above 65,535, by the count: R135 gives the count no limit and R197
gives the field 2 bytes. Notes: assumption log 37. -/
opaque longCorrection : Nat → BitVec 16

/-- FREE VALUE. The pending polarity that CLOCKSTATE carries beside a pending UNKNOWN, which has no polarity (R131, R197).
Notes: assumption log 17. -/
opaque pendingUnknownPolarity : Byte

end Sys2Proof.Config
end

