-- ==== Sys2Proof/Machine/State.lean ====
section
/-! DEFINITION. The state of the HN-2416, block by block as the state tables of Chapters 1 to 10 list it, as plain data,
and the state right after a full reset of a part whose image was never written and whose Retained Store was lost.
Local times are counts of µs of the local oscillator since the model's origin; the 32 bit local µs counter is their
value modulo 2^32. A running timer is held as the local time at which it ends. -/

namespace Sys2Proof.Machine

/-- One of the 24 local outputs: 0..15 are B0..B15, 16..23 are S0..S7 (Conventions). -/
abbrev Output := Fin 24
/-- One of the 32 supervised circuits (Conventions). -/
abbrev Circuit := Fin 32
/-- A clock line K0..K7. -/
abbrev LineNo := Fin 8

/-- The 24 outputs in ascending order. -/
def allOutputs : List Output := List.finRange 24
/-- The eight clock lines in ascending order. -/
def allLines : List LineNo := List.finRange 8
/-- The 32 circuits in ascending order. -/
def allCircuits : List Circuit := List.finRange 32

/-! ## Frames and the line (Chapter 2) -/

/-- A frame without its Length and CRC, which are computed from it (R194). -/
structure Frame where
  kind    : Byte
  hops    : Byte
  sel     : Word16
  mask    : Word16
  tag     : Byte
  payload : List Byte
deriving DecidableEq, Repr

/-- R22: the link states, coded as R197's enumeration lists them. -/
inductive LinkState where
  | absent
  | debounce
  | training
  | active
deriving DecidableEq, Repr

/-- What the transmitter writes into a queued frame at the start of its transmission (R31, R39). -/
inductive Origin where
  /-- A downstream frame or an unknown kind forwarded on DOWN: Hops plus 1. -/
  | relayDown
  /-- An accepted TIME frame forwarded on DOWN: Hops plus 1 and A' = A + L + residence (R18). -/
  | relayTime (linkDelay : Nat)
  /-- A frame forwarded on UP: Hops as received. -/
  | relayUp
  /-- A MGMT_RPL or NOTICE of this node: the hop position. -/
  | own
  /-- The OK reply to LINE_RESET, whose leaving takes the line reset (R192). -/
  | resetReply
  /-- This node's ECHO_REQ (R15). -/
  | echoReq
  /-- This node's ECHO_RPL: the turnaround (R36). -/
  | echoRpl
deriving DecidableEq, Repr

/-- One frame of a transmit queue, with its receipt stamp where it answers or forwards a received frame. -/
structure QItem where
  frame  : Frame
  stamp  : Option Word32
  origin : Origin
deriving DecidableEq, Repr

/-- The frame a transmitter is sending: as sent, with its CRC, the local times of its start and end, and its origin. -/
structure Transmission where
  frame   : Frame
  crc     : Word16
  started : Nat
  ends    : Nat
  origin  : Origin
deriving DecidableEq, Repr

/-- The Line Interface of one port and the two transmit queues of the port. -/
structure Port where
  link        : LinkState
  debounceEnd : Option Nat
  trainingEnd : Option Nat
  /-- The frame under reception: the bytes received so far, or none. -/
  rx          : Option (List Byte)
  /-- The transmitter: idle, or sending one frame. -/
  tx          : Option Transmission
  /-- The end of the last transmission, for the byte time of idle pattern after it (R38). -/
  lastTxEnd   : Option Nat
  express     : List QItem
  normal      : List QItem
deriving DecidableEq, Repr

structure Line where
  up   : Port
  down : Port
  /-- Hop position 1..255, or unknown. -/
  hop  : Option Byte
deriving DecidableEq, Repr

/-- The four transmit queues (R37). -/
inductive QueueId where
  | downExpress
  | downNormal
  | upExpress
  | upNormal
deriving DecidableEq, Repr

/-! ## The Timebase (Chapter 1) -/

/-- R2, coded as R197's enumeration. -/
inductive Quality where
  | invalid
  | backup
  | synced
  | holdover
deriving DecidableEq, Repr

/-- R15: the state of the echo measurement. -/
inductive EchoState where
  | idle
  | queued
  | awaiting (t1 : Word32) (replyEnd : Nat)
deriving DecidableEq, Repr

structure Timebase where
  /-- Day count D. -/
  day         : Word16
  /-- ms-of-day T. -/
  ms          : Nat
  /-- µs of the local oscillator since the last tick, of which the sub-millisecond counter u is the reading
  (Timebase.us). It runs on past 999 until the tick is taken (assumption log 2). -/
  phase       : Nat
  /-- Slew correction C. -/
  slew        : Int
  /-- Slew counter 0..49. -/
  slewCount   : Nat
  quality     : Quality
  epoch       : Option Byte
  timeoutEnd  : Option Nat
  /-- UP link delay L. -/
  linkDelay   : Nat
  sampleTaken : Bool
  echo        : EchoState
  echoTag     : Byte
  echoPeriod  : Option Nat
deriving DecidableEq, Repr

/-! ## The Zone Map (Chapter 3) -/

inductive OutputKind where
  | bell
  | speaker
deriving DecidableEq, Repr

/-- R43. -/
structure Window where
  enabled : Bool
  kind    : OutputKind
  start   : Nat
  stop    : Nat
  base    : Nat
deriving DecidableEq, Repr

/-- R45. -/
structure ZoneAttr where
  wing          : Nat
  floor         : Nat
  roomUse       : Nat
  grade         : Nat
  quiet         : Bool
  evac          : Bool
  bellOnSpeaker : Bool
  gain          : Nat
  level         : Nat
deriving DecidableEq, Repr

/-- A target specification as carried, five bytes (R47, R195). -/
structure Target where
  mode : Byte
  lo   : Nat
  hi   : Nat
deriving DecidableEq, Repr

structure ZoneMap where
  windows : Vector Window 8
  attrs   : Vector ZoneAttr 24
  sel     : Vector Bool 24
deriving DecidableEq, Repr

/-! ## The Bell Scheduler (Chapter 4) -/

inductive EntryKind where
  | empty
  | bell
  | drill
deriving DecidableEq, Repr

/-- R58. -/
structure SchedEntry where
  time     : Nat
  planMask : Byte
  kind     : EntryKind
  flags    : Byte
  pattern  : Nat
  target   : Target
  duration : Nat
deriving DecidableEq, Repr

/-- An EMPTY entry is stored with every other field 0 (R58). -/
def SchedEntry.emptyEntry : SchedEntry := ⟨0, 0, .empty, 0, 0, ⟨0, 0, 0⟩, 0⟩

/-- A plan 0..7 or NO_BELLS. -/
inductive Plan where
  | day (k : Fin 8)
  | noBells
deriving DecidableEq, Repr

/-- R62. -/
structure CalendarEntry where
  valid : Bool
  date  : Word16
  plan  : Plan
deriving DecidableEq, Repr

abbrev Schedule := Vector SchedEntry 256

structure BellScheduler where
  bankA         : Schedule
  bankB         : Schedule
  active        : Bank
  pendingSwap   : Bool
  calendar      : Vector CalendarEntry 64
  week          : Vector Plan 7
  /-- Plan of day; none is NONE. -/
  plan          : Option Plan
  /-- High-water mark; none is NONE. -/
  hwm           : Option Nat
  /-- Cursor; none is END. -/
  cursor        : Option (Fin 256)
deriving DecidableEq, Repr

/-! ## The Zone Arbiter (Chapter 5) -/

/-- One step of a tone pattern, its times in units of 10 ms (R93, R197). -/
structure ToneStep where
  on    : Nat
  off   : Nat
  pitch : Nat
deriving DecidableEq, Repr

/-- R93: the step count is the length of the list. -/
structure TonePattern where
  repeats : Bool
  steps   : List ToneStep
deriving DecidableEq, Repr

/-- R79: the eleven sources of claims. -/
inductive Source where
  | fdc
  | bell
  | force
  | page (r : Fin 8)
deriving DecidableEq, Repr

/-- R80. -/
inductive Content where
  | tone (pattern : TonePattern)
  | continuous
  | page
deriving DecidableEq, Repr

/-- R80. The remaining duration of a BELL claim is held as the local time at which it reaches 0; none is unlimited. -/
structure Claim where
  source  : Source
  cls     : Nat
  content : Content
  ends    : Option Nat
deriving DecidableEq, Repr

/-- R91, coded as R197's enumeration. -/
inductive ForceState where
  | none
  | on
  | off
deriving DecidableEq, Repr

/-- A place in a tone pattern: the step, the phase and the local time at which the phase began. -/
structure TonePos where
  step  : Nat
  on    : Bool
  since : Nat
deriving DecidableEq, Repr

/-- The play state of the winner (5.0). -/
inductive Play where
  /-- Nothing is driven: no winner, or the output is isolated. -/
  | silent
  /-- A TONE claim at a place of its pattern, with the tone level read at the start of the ON phase (R95). -/
  | tone (pos : TonePos) (level : Nat)
  /-- A TONE claim whose pattern without repeat has been played (R94). -/
  | finished
  /-- A CONTINUOUS claim. -/
  | continuous
  /-- A PAGE claim: the zone gain read when the frame in play began here, the tone level of the chime, and for a frame
  with a saturated sample the local time from which the first such sample is played here (R109). -/
  | page (gain level : Nat) (clip : Option Nat)
deriving DecidableEq, Repr

/-- The state of one output. -/
structure OutputState where
  /-- The claim list in join order. -/
  claims  : List Claim
  force   : ForceState
  /-- The winner, named by its source: a list holds one claim of a source (R81). -/
  winner  : Option Source
  play    : Play
  /-- For each call record, that its frame in play has been counted CLIPPED here, so that a frame counts once for a zone
  however often the winner changes while it lasts (R109). -/
  clipped : Vector Bool 8
deriving DecidableEq, Repr

structure Arbiter where
  outputs : Vector OutputState 24
  tones   : Vector TonePattern 16
deriving DecidableEq, Repr

/-! ## The Page Engine (Chapter 6) -/

/-- An audio frame: 40 received samples, or a silence frame. -/
inductive AudioFrame where
  | samples (s : List Int)
  | silence
deriving DecidableEq, Repr

/-- R98, coded as R197's enumeration. -/
inductive CallState where
  | chime
  | prefill
  | play
  | drain
deriving DecidableEq, Repr

/-- The frame in play: the frame, the local time its 5 ms began and the page gain read then (R109). -/
structure InPlay where
  frame : AudioFrame
  since : Nat
  gain  : Nat
deriving DecidableEq, Repr

/-- R98. -/
structure Call where
  channel    : Nat
  priority   : Nat
  zones      : List Output
  chime      : Option TonePattern
  gain       : Nat
  state      : CallState
  expected   : Option Byte
  fifo       : List AudioFrame
  inPlay     : Option InPlay
  underruns  : Nat
  silenceEnd : Option Nat
  order      : Word16
  /-- In CHIME: the local time at which the one pass of the chime ends (R103). -/
  chimeEnd   : Option Nat
  /-- In CHIME: the point the chime has reached; none after the last OFF phase. -/
  chimePos   : Option TonePos
deriving DecidableEq, Repr

structure PageEngine where
  calls     : Vector (Option Call) 8
  openOrder : Word16
  /-- The local time of the next tick of the frame clock. -/
  nextTick  : Nat
deriving DecidableEq, Repr

/-! ## The Clock Line Driver (Chapter 7) -/

/-- R118. -/
inductive ClockType where
  | off
  | minute
  | half
deriving DecidableEq, Repr

inductive PolarityMode where
  | polarized
  | same
deriving DecidableEq, Repr

inductive Polarity where
  | a
  | b
deriving DecidableEq, Repr

/-- R118: w and g in ms. -/
structure ClockCfg where
  type     : ClockType
  polarity : PolarityMode
  width    : Nat
  gap      : Nat
  window   : Nat
  openLim  : Nat
  shortLim : Nat
deriving DecidableEq, Repr

/-- The clock modes, coded as R197's enumeration. -/
inductive ClockMode where
  | off
  | inStep
  | advance
  | hold
  | suspended
  | unknownWait
  | noTime
deriving DecidableEq, Repr

/-- R126: the check result of a pulse. -/
inductive CheckResult where
  | pending
  | good
  | openLine
deriving DecidableEq, Repr

/-- R125: the pulse in flight, with the width and limits held at its start. -/
structure Pulse where
  polarity : Polarity
  start    : Nat
  due      : Nat
  midDue   : Nat
  result   : CheckResult
  openLim  : Nat
  shortLim : Nat
deriving DecidableEq, Repr

/-- A pending position (R131): UNKNOWN, or a position with a polarity, none being KEEP. -/
inductive PendingPos where
  | unknown
  | position (i : Nat) (polarity : Option Polarity)
deriving DecidableEq, Repr

/-- The volatile state of one line. -/
structure ClockLine where
  mode       : ClockMode
  pulse      : Option Pulse
  pending    : Option PendingPos
  gapEnd     : Option Nat
  lastEnd    : Option Nat
  correction : Option Nat
deriving DecidableEq, Repr

structure ClockDriver where
  cfg   : Vector ClockCfg 8
  lines : Vector ClockLine 8
deriving DecidableEq, Repr

/-! ## The Circuit Supervisor (Chapter 8) -/

/-- R140: dwell in ms. -/
structure SupCfg where
  enabled     : Bool
  dwell       : Nat
  lo          : Nat
  hi          : Nat
  n           : Nat
  h           : Nat
  autoRecover : Bool
  autoIsolate : Bool
deriving DecidableEq, Repr

inductive CircState where
  | normal
  | alert
  | fault
deriving DecidableEq, Repr

inductive FaultKind where
  | openLine
  | short
deriving DecidableEq, Repr

/-- R139. -/
structure CircRecord where
  state       : CircState
  count       : Nat
  kind        : Option FaultKind
  isolated    : Bool
  recoverable : Bool
  last        : Option Byte
deriving DecidableEq, Repr

/-- NORMAL, count 0, no kind, isolated clear, recoverable clear, last reading none (R152). -/
def CircRecord.fresh : CircRecord := ⟨.normal, 0, none, false, false, none⟩

/-- The scan position (R141). `parked c`: the scan passed c last and every enabled circuit is driven. -/
inductive Scan where
  | idle
  | dwell (c : Circuit) (start len : Nat)
  | parked (c : Circuit)
deriving DecidableEq, Repr

structure Supervisor where
  cfg     : Vector SupCfg 32
  records : Vector CircRecord 32
  scan    : Scan
deriving DecidableEq, Repr

/-! ## The Fire and Drill Controller (Chapter 9) -/

/-- R155, coded as R197's enumeration. -/
inductive FireState where
  | quiet
  | pending
  | active
  | clearing
deriving DecidableEq, Repr

/-- R159: durations and the hold limit in s. -/
structure DrillProg where
  prePattern   : Nat
  preTime      : Nat
  evacPattern  : Nat
  evacTime     : Nat
  holdLimit    : Nat
  sweepMask    : Byte
  clearPattern : Nat
  clearTime    : Nat
deriving DecidableEq, Repr

/-- The states of a drill that is held; IDLE is the absence of a drill (R160). -/
inductive DrillPhase where
  | armed
  | preAlert
  | evacuate
  | hold
  | allClear
deriving DecidableEq, Repr

/-- R171: how a drill or a fire ended. -/
inductive DrillOutcome where
  | none
  | complete
  | incomplete
  | aborted
  | abortedLocal
  | abortedReset
  | superseded
deriving DecidableEq, Repr

/-- R160: the drill run record outside IDLE. -/
structure Drill where
  phase     : DrillPhase
  id        : Word16
  program   : Fin 4
  prog      : DrillProg
  startDay  : Word16
  startMs   : Nat
  deadline  : Option Nat
  /-- The local time at which the drill left ARMED: the run time counts from it. -/
  runStart  : Nat
  /-- Progress notices raised so far (R170). -/
  progress  : Nat
  holdLimit : Bool
  evacSet   : Option (List Output)
deriving DecidableEq, Repr

inductive RollKind where
  | drill
  | fire
deriving DecidableEq, Repr

/-- R171. -/
structure RollCall where
  kind      : RollKind
  id        : Word16
  program   : Option (Fin 4)
  sweepMask : Byte
  /-- Start campus time, or none for the invalid mark. -/
  start     : Option (Word16 × Nat)
  isOpen    : Bool
  /-- The last phase, as the code of R197's enumeration. -/
  lastPhase : Byte
  /-- The local time of opening, from which clear times are measured (R172). -/
  openedAt  : Nat
  clear     : Vector (Option Nat) 8
  missing   : Nat
  outcome   : DrillOutcome
deriving DecidableEq, Repr

/-- A debounced pushbutton (R169): its level, as the last full reset or press left it (assumption log 13), and the first local
time at which a further press can be taken. -/
structure Key where
  level   : Bool
  readyAt : Nat
deriving DecidableEq, Repr

structure FireDrill where
  fire       : FireState
  count      : Nat
  troubleRun : Nat
  trouble    : Bool
  fireSet    : Option (List Output)
  drill      : Option Drill
  programs   : Vector DrillProg 4
  roll       : Option RollCall
  sweeps     : Vector Key 8
  holdKey    : Key
  /-- The local time of the next FIRE check (R154). -/
  nextCheck  : Nat
deriving DecidableEq, Repr

/-! ## Management (Chapter 10) -/

/-- R181: where a standing condition is steered. -/
inductive Steer where
  | none
  | indA
  | indB
deriving DecidableEq, Repr

/-- R181. The steering fields stand in the order LINE, TIME, CLOCK, SUPERVISION, FIRE, DRILL. -/
structure NodeCfg where
  linkDelay     : Nat
  stepThreshold : Nat
  lateWindow    : Nat
  allowForceOn  : Bool
  allowForceOff : Bool
  evacOnFire    : Bool
  inactiveLo    : Nat
  inactiveHi    : Nat
  activeLo      : Nat
  activeHi      : Nat
  activateDelay : Nat
  clearDelay    : Nat
  firePattern   : Nat
  fireSweeps    : Byte
  /-- Notice enables, bits 0 to 7 for LINE, TIME, BELL, PAGE, CLOCK, SUPERVISION, DRILL, MGMT (R197). -/
  enables       : Byte
  steering      : Vector Steer 6
deriving DecidableEq, Repr

/-- R189. -/
inductive ImageResult where
  | loaded
  | someFactory
  | factory
deriving DecidableEq, Repr

/-- R187: the contents of the default image. -/
structure Image where
  addr     : Word16
  node     : NodeCfg
  sched    : Schedule
  calendar : Vector CalendarEntry 64
  week     : Vector Plan 7
  windows  : Vector Window 8
  attrs    : Vector ZoneAttr 24
  tones    : Vector TonePattern 16
  clocks   : Vector ClockCfg 8
  sups     : Vector SupCfg 32
  drills   : Vector DrillProg 4
deriving DecidableEq, Repr

/-- A save in progress: the snapshot being written and the Tag its reply will carry (R188). -/
structure Save where
  snapshot : Image
  tag      : Byte
deriving DecidableEq, Repr

structure Management where
  addr          : Word16
  node          : NodeCfg
  save          : Option Save
  resetPending  : Bool
  unassignedEnd : Option Nat
  imageResult   : ImageResult
  /-- The mask of the spaces given factory values, as READ_STATUS reports it (R196). -/
  factoryMask   : Word16
  storeValid    : Bool
deriving DecidableEq, Repr

/-! ## The Retained Store (R120, R190) -/

/-- A line's retained record. -/
structure Retained where
  position : Option Nat
  polarity : Polarity
  valid    : Bool
  type     : Option ClockType
deriving DecidableEq, Repr

structure RetainedStore where
  /-- The backup supply is present. -/
  supply      : Bool
  /-- The check value agrees with the contents. -/
  checkOk     : Bool
  timeWritten : Bool
  day         : Word16
  second      : Nat
  lines       : Vector Retained 8
deriving DecidableEq, Repr

/-! ## Counters (R193, in the order of R197) -/

inductive Counter where
  | timeDiscard | timeSteps | echoTimeout | echoInvalid | echoUnexpected
  | upCrcError | downCrcError | upLengthError | downLengthError | upAborted | downAborted | wrongDirection | unknownKind
  | deFull | dnFull | ueFull | unFull | upNoPort | upFlushed | downFlushed | upLoss | downLoss
  | mapOverflow | targetBad | selectBad | selectTruncated
  | bellsFired | missed | suppressedFire | suppressedDrill | bellEmpty | drillsStarted | schedDrillRefused | bellNowBad
  | bellNowClamped
  | undelivered
  | pageOpenBad | pageEmpty | openIgnored | evicted | chimeDiscard | afterClose | audioBad | concealed | resync | late
  | overrun | underrun | clipped | timeout | callsCut
  | pulsesDelivered | pulseShort | pulseOpen | clockResyncs
  | skipped | readingDiscarded | faultsEntered | circRecoveries
  | fireActivations | fireTrouble | drillBad | drillsRefused | drillNoMatch | drillRuns | sweepIgnored | holdKeyIgnored
  | mgmtRequests | mgmtRefused | repliesLost | noticesLost
deriving DecidableEq, Repr

/-- The record number of a counter in the COUNTERS space (R197). -/
def Counter.index (c : Counter) : Fin 71 := ⟨c.ctorIdx, by cases c <;> decide⟩

/-! ## The whole state -/

structure State where
  /-- Local time in µs: the model's own field; the local µs counter is its value modulo 2^32. -/
  now       : Nat
  /-- The node is held in reset (R191). -/
  held      : Bool
  /-- The main supply is at its working level (R190, R191). -/
  mainPower : Bool
  line      : Line
  tb        : Timebase
  zm        : ZoneMap
  bs        : BellScheduler
  za        : Arbiter
  pe        : PageEngine
  cld       : ClockDriver
  csv       : Supervisor
  fdc       : FireDrill
  mu        : Management
  rs        : RetainedStore
  /-- The default image: none when its check value fails (R187). -/
  image     : Option Image
  counters  : Vector Nat 71
  /-- The model's own field: how many free values have been drawn (Config). -/
  draws     : Nat
  /-- The commands that are waiting, first in first out. -/
  pending   : List Instr
deriving DecidableEq, Repr

/-- Faults: none. The manual gives the node no behaviour in which it stops, so no meaning raises one. -/
inductive Fault where
deriving DecidableEq, Repr

/-- Refusals. -/
inductive Refusal where
  /-- Raised by exec's arm of a command that has no meaning yet; safe. -/
  | notModelled (mnemonic : String)
  /-- Raised by a meaning whose command is not well-formed (Instr.WellFormed): a frame longer than the line carries, or a
  command whose bytes spell another row of the table. No such command can arrive, so this is safe. -/
  | illFormed
deriving DecidableEq, Repr

/-! ## Values after a full reset -/

/-- R41, for one port. -/
def Port.reset : Port := ⟨.absent, none, none, none, none, none, [], []⟩

/-- R41. -/
def Line.reset : Line := ⟨.reset, .reset, none⟩

/-- R20, in INVALID, with the default link delay given. -/
def Timebase.reset (linkDelay : Nat) : Timebase :=
  { day := 0, ms := 0, phase := 0, slew := 0, slewCount := 0, quality := .invalid, epoch := none, timeoutEnd := none,
    linkDelay := linkDelay, sampleTaken := false, echo := .idle, echoTag := 0, echoPeriod := none }

/-- R43: the factory window. -/
def Window.factory : Window := ⟨false, .bell, 0, 0, 0⟩

/-- R45: the factory attribute record of record n. -/
def ZoneAttr.factory (n : Fin 24) : ZoneAttr :=
  if n.val < 16 then ⟨0, 0, 0, 0, false, false, false, 0, 0⟩ else ⟨0, 0, 0, 0, false, false, false, 128, 128⟩

/-- R45: the 24 factory attribute records. -/
def factoryAttrs : Vector ZoneAttr 24 :=
  Vector.replicate 16 (ZoneAttr.factory 0) ++ Vector.replicate 8 (ZoneAttr.factory 16)

/-- R93: the factory pattern. -/
def TonePattern.factory : TonePattern := ⟨true, [⟨500, 0, 6⟩]⟩

/-- R77: the factory calendar entry. -/
def CalendarEntry.factory : CalendarEntry := ⟨false, 0, .noBells⟩

/-- R77: a bank of only EMPTY entries. -/
def emptyBank : Schedule := Vector.replicate 256 .emptyEntry

/-- R118: the factory line configuration. -/
def ClockCfg.factory : ClockCfg := ⟨.off, .polarized, 500, 500, 0, 20, 230⟩

/-- R140: the factory supervision configuration. -/
def SupCfg.factory : SupCfg := ⟨false, 50, 40, 200, 3, 8, false, false⟩

/-- R159: the factory drill program. -/
def DrillProg.factory : DrillProg := ⟨0, 0, 0, 60, 0, 0, 0, 0⟩

/-- R181: the factory NODECFG. -/
def NodeCfg.factory : NodeCfg :=
  { linkDelay := 500, stepThreshold := 1000, lateWindow := 10, allowForceOn := false, allowForceOff := false,
    evacOnFire := true, inactiveLo := 10, inactiveHi := 90, activeLo := 160, activeHi := 240, activateDelay := 3,
    clearDelay := 30, firePattern := 0, fireSweeps := 0, enables := 0xFF,
    steering := #v[.none, .none, .indB, .indB, .indA, .none] }

/-- R189: every setting at its factory value. -/
def Image.factory : Image :=
  { addr := 0, node := .factory, sched := emptyBank, calendar := Vector.replicate 64 .factory,
    week := Vector.replicate 7 .noBells, windows := Vector.replicate 8 .factory, attrs := factoryAttrs,
    tones := Vector.replicate 16 .factory, clocks := Vector.replicate 8 .factory, sups := Vector.replicate 32 .factory,
    drills := Vector.replicate 4 .factory }

/-- R96: an output after a full reset. -/
def OutputState.reset : OutputState := ⟨[], .none, none, .silent, Vector.replicate 8 false⟩

/-- R137: a line after a full reset. -/
def ClockLine.reset (t : ClockType) : ClockLine :=
  ⟨if t = .off then .off else .noTime, none, none, none, none, none⟩

/-- R174: a key whose debounced level is read at the reset. A released key can give a press after 50 ms held; a pressed
one after it has been released and held, 50 ms each. -/
def Key.atReset (level : Bool) (now : Nat) : Key := ⟨level, now + (if level then 2 else 1) * Config.keyUs⟩

/-- R120: a line's retained record when the store is not valid. -/
def Retained.blank (t : ClockType) : Retained := ⟨none, .b, false, if t = .off then none else some t⟩

/-- R185, R196: the NOTICE frame of START after a full reset with image result FACTORY and an invalid store: class 9, code
1, address 0, the invalid mark, five bytes of arguments. -/
def startNoticeAtReset : Frame :=
  { kind := 0x42, hops := 0, sel := 0, mask := 0, tag := 0,
    payload := [9, 1, 0, 0, 0, 0, 0xFF, 0xFF, 0xFF, 0xFF, 5, 0, 2, 0x0F, 0xFB, 0] }

/-- The machine right after a full reset, at local time 0, of a part whose image was never written and whose Retained Store
had lost its contents (R20, R41, R57, R77, R96, R116, R137, R152, R174, R189 to R191), with every key released. -/
def State.reset : State :=
  { now := 0, held := false, mainPower := true,
    line := { up := { Port.reset with normal := [⟨startNoticeAtReset, none, .own⟩] }, down := .reset, hop := none },
    tb := .reset 500,
    zm := { windows := Image.factory.windows, attrs := Image.factory.attrs, sel := Vector.replicate 24 false },
    bs := { bankA := emptyBank, bankB := emptyBank, active := .a, pendingSwap := false, calendar := Image.factory.calendar,
            week := Image.factory.week, plan := none, hwm := none, cursor := none },
    za := { outputs := Vector.replicate 24 .reset, tones := Image.factory.tones },
    pe := { calls := Vector.replicate 8 none, openOrder := 0, nextTick := Config.frameClockUs },
    cld := { cfg := Image.factory.clocks, lines := Vector.replicate 8 (.reset .off) },
    csv := { cfg := Image.factory.sups, records := Vector.replicate 32 .fresh, scan := .idle },
    fdc := { fire := .quiet, count := 0, troubleRun := 0, trouble := false, fireSet := none, drill := none,
             programs := Image.factory.drills, roll := none, sweeps := Vector.replicate 8 (.atReset false 0),
             holdKey := .atReset false 0, nextCheck := Config.fireCheckUs },
    mu := { addr := 0, node := .factory, save := none, resetPending := false, unassignedEnd := some Config.unassignedUs,
            imageResult := .factory, factoryMask := 0x0FFB, storeValid := false },
    rs := { supply := true, checkOk := true, timeWritten := false, day := 0, second := 0,
            lines := Vector.replicate 8 (.blank .off) },
    image := none,
    counters := Vector.replicate 71 0, draws := 0, pending := [] }

end Sys2Proof.Machine
end

