-- ==== Sys2Proof/Machine/Ops.lean ====
section
/-! DEFINITION. The operations every block shares: the passing of local time, counters, the parts of State, the transmit
queues (R37), notices (R184), replies (R176), and the enumeration codes of Chapter 11. -/

namespace Sys2Proof.Machine

/-! ## Outcomes and time -/

/-- The outcome of a command that its row can spell, or its refusal. -/
def carried (wellFormed : Bool) (t : State) : Host.Outcome State Fault Refusal :=
  if wellFormed then .next t else .refused .illFormed

/-- R1: the sub-millisecond counter u: held at 0 in INVALID, else the µs since the last tick, which read 999 where a tick
is overdue (assumption log 2). -/
def Timebase.us (tb : Timebase) : Nat := if tb.quality = .invalid then 0 else min 999 tb.phase

/-- The local µs counter (Conventions). -/
def State.localCount (s : State) : Word32 := BitVec.ofNat 32 s.now

/-- A timer that is running and has reached its end. -/
def State.expired (s : State) (timer : Option Nat) : Bool :=
  match timer with
  | some e => decide (e ≤ s.now)
  | none => false

/-- The number of the next free value, and the state that has drawn it. -/
def State.draw (s : State) : Nat × State := (s.draws, { s with draws := s.draws + 1 })

/-! ## Counters -/

def State.counter (s : State) (c : Counter) : Nat := s.counters[c.index]

/-- Counts k events (Conventions: saturating). -/
def State.countN (s : State) (c : Counter) (k : Nat) : State :=
  { s with counters := s.counters.set c.index (saturate16 (s.counters[c.index] + k)) }

def State.count (s : State) (c : Counter) : State := s.countN c 1

/-! ## The passing of time -/

/-- R142: while every enabled circuit is driven the visits of the scan go on, and each is counted SKIPPED; how many come
between two commands is a free value (assumption log 5). -/
def State.skipsGoOn (s : State) : State :=
  match s.csv.scan with
  | .parked _ => s.draw.2.countN .skipped (Config.skipsWhileAllDriven s.draw.1)
  | .idle => s
  | .dwell _ _ _ => s

/-- R1: dt µs pass. The local oscillator counts on in every quality; while the node is held in reset nothing runs but the
local time (R191). -/
def State.elapse (s : State) (dt : Nat) : State :=
  if s.held then { s with now := s.now + dt }
  else { s.skipsGoOn with now := s.now + dt, tb := { s.tb with phase := s.tb.phase + dt } }

/-- An event of the running node, dt µs after the command before. While the node is held in reset no block acts (R191). -/
def live (dt : Nat) (act : State → State) (s : State) : State :=
  if (s.elapse dt).held then s.elapse dt else act (s.elapse dt)

/-! ## Parts of the state -/

def State.port (s : State) : PortId → Port
  | .up => s.line.up
  | .down => s.line.down

def State.setPort (s : State) (p : PortId) (v : Port) : State :=
  match p with
  | .up => { s with line := { s.line with up := v } }
  | .down => { s with line := { s.line with down := v } }

def State.out (s : State) (o : Output) : OutputState := s.za.outputs[o]

def State.setOut (s : State) (o : Output) (v : OutputState) : State :=
  { s with za := { s.za with outputs := s.za.outputs.set o v } }

def State.attr (s : State) (o : Output) : ZoneAttr := s.zm.attrs[o]

def State.call (s : State) (r : Fin 8) : Option Call := s.pe.calls[r]

def State.setCall (s : State) (r : Fin 8) (c : Option Call) : State :=
  { s with pe := { s.pe with calls := s.pe.calls.set r c } }

def State.clockCfg (s : State) (k : LineNo) : ClockCfg := s.cld.cfg[k]

def State.clockLine (s : State) (k : LineNo) : ClockLine := s.cld.lines[k]

def State.setClockLine (s : State) (k : LineNo) (v : ClockLine) : State :=
  { s with cld := { s.cld with lines := s.cld.lines.set k v } }

def State.retained (s : State) (k : LineNo) : Retained := s.rs.lines[k]

/-- R120: a write of a line's retained record, with the check value brought up to date. -/
def State.setRetained (s : State) (k : LineNo) (v : Retained) : State :=
  { s with rs := { s.rs with lines := s.rs.lines.set k v } }

def State.supCfg (s : State) (c : Circuit) : SupCfg := s.csv.cfg[c]

def State.circ (s : State) (c : Circuit) : CircRecord := s.csv.records[c]

def State.setCirc (s : State) (c : Circuit) (v : CircRecord) : State :=
  { s with csv := { s.csv with records := s.csv.records.set c v } }

def State.setScan (s : State) (v : Scan) : State := { s with csv := { s.csv with scan := v } }

/-- The supervised circuit of an output (5.0): n for a bell circuit, n + 8 for a speaker zone. -/
def circuitOf (o : Output) : Circuit := if h : o.val < 16 then ⟨o.val, by omega⟩ else ⟨o.val + 8, by omega⟩

/-- The supervised circuit of clock line Kk: 16 + k. -/
def circuitOfLine (k : LineNo) : Circuit := ⟨16 + k.val, by omega⟩

/-- The local output of a circuit, where it is no clock line. -/
def outputOf (c : Circuit) : Option Output :=
  if h : c.val < 16 then some ⟨c.val, by omega⟩ else if h : 24 ≤ c.val then some ⟨c.val - 8, by omega⟩ else none

/-- The clock line of a circuit 16..23. -/
def lineOf (c : Circuit) : Option LineNo :=
  if h : 16 ≤ c.val ∧ c.val < 24 then some ⟨c.val - 16, by omega⟩ else none

/-! ## Transmit queues (R37) -/

/-- R37: the capacities. -/
def QueueId.capacity : QueueId → Nat
  | .downExpress => 8
  | .downNormal => 16
  | .upExpress => 4
  | .upNormal => 32

/-- R37: the counter of a full queue. -/
def QueueId.fullCounter : QueueId → Counter
  | .downExpress => .deFull
  | .downNormal => .dnFull
  | .upExpress => .ueFull
  | .upNormal => .unFull

def State.queue (s : State) : QueueId → List QItem
  | .downExpress => s.line.down.express
  | .downNormal => s.line.down.normal
  | .upExpress => s.line.up.express
  | .upNormal => s.line.up.normal

def State.setQueue (s : State) (q : QueueId) (l : List QItem) : State :=
  match q with
  | .downExpress => { s with line := { s.line with down := { s.line.down with express := l } } }
  | .downNormal => { s with line := { s.line with down := { s.line.down with normal := l } } }
  | .upExpress => { s with line := { s.line with up := { s.line.up with express := l } } }
  | .upNormal => { s with line := { s.line with up := { s.line.up with normal := l } } }

def State.hasRoom (s : State) (q : QueueId) : Bool := decide ((s.queue q).length < q.capacity)

/-- R37: a frame joins the tail of its queue, or is dropped at a full queue and counted. -/
def State.join (s : State) (q : QueueId) (i : QItem) : State :=
  if s.hasRoom q then s.setQueue q (s.queue q ++ [i]) else s.count q.fullCounter

/-- R37: a frame or ECHO_RPL for DOWN, not queued and not counted while DOWN is not ACTIVE. -/
def State.joinDown (s : State) (q : QueueId) (i : QItem) : State :=
  if s.line.down.link = .active then s.join q i else s

/-- R37: an upstream frame or unknown kind forwarded on UP, dropped and counted while UP is not ACTIVE. -/
def State.relayUp (s : State) (f : Frame) : State :=
  if s.line.up.link = .active then s.join .upNormal ⟨f, some s.localCount, .relayUp⟩ else s.count .upNoPort

/-- R31: a frame this node makes, with selector ALL of value 0 and mask 0. -/
def ownFrame (kind tag : Byte) (payload : List Byte) : Frame := ⟨kind, 0, 0, 0, tag, payload⟩

/-- R176, R184: an own reply or notice joins UP normal, or is dropped at the full queue and also counted as lost. -/
def State.joinOwn (s : State) (f : Frame) (origin : Origin) (lost : Counter) : State :=
  if s.hasRoom .upNormal then s.join .upNormal ⟨f, none, origin⟩
  else (s.join .upNormal ⟨f, none, origin⟩).count lost

/-! ## Codes of Chapter 11 -/

def LinkState.code : LinkState → Nat
  | .absent => 0 | .debounce => 1 | .training => 2 | .active => 3

def Quality.code : Quality → Nat
  | .invalid => 0 | .backup => 1 | .synced => 2 | .holdover => 3

def Plan.code : Plan → Nat
  | .day k => k.val
  | .noBells => 8

/-- The plan of day: 9 is NONE. -/
def planCode : Option Plan → Nat
  | some p => p.code
  | none => 9

def FireState.code : FireState → Nat
  | .quiet => 0 | .pending => 1 | .active => 2 | .clearing => 3

def DrillPhase.code : DrillPhase → Nat
  | .armed => 1 | .preAlert => 2 | .evacuate => 3 | .hold => 4 | .allClear => 5

/-- The drill state: 0 is IDLE. -/
def drillCode : Option Drill → Nat
  | some d => d.phase.code
  | none => 0

def DrillOutcome.code : DrillOutcome → Nat
  | .none => 0 | .complete => 1 | .incomplete => 2 | .aborted => 3 | .abortedLocal => 4 | .abortedReset => 5
  | .superseded => 6

def CallState.code : CallState → Nat
  | .chime => 0 | .prefill => 1 | .play => 2 | .drain => 3

def ClockMode.code : ClockMode → Nat
  | .off => 0 | .inStep => 1 | .advance => 2 | .hold => 3 | .suspended => 4 | .unknownWait => 5 | .noTime => 6

def ClockType.code : ClockType → Nat
  | .off => 0 | .minute => 1 | .half => 2

def CircState.code : CircState → Nat
  | .normal => 0 | .alert => 1 | .fault => 2

def FaultKind.code : FaultKind → Nat
  | .openLine => 1 | .short => 2

def kindCode : Option FaultKind → Nat
  | some k => k.code
  | none => 0

def ForceState.code : ForceState → Nat
  | .none => 0 | .on => 1 | .off => 2

def bankCode : Bank → Nat
  | .a => 0 | .b => 1

def ImageResult.code : ImageResult → Nat
  | .loaded => 0 | .someFactory => 1 | .factory => 2

/-- The argument form of a position: 0xFFFF for UNKNOWN or the invalid mark (R196). -/
def posCode : Option Nat → Nat
  | some i => i
  | none => 0xFFFF

/-- The 2 bytes of a correction count (R135, R136): a count above 65,535 has none that the manual states, and a free value
stands for it (assumption log 37). -/
def corrCode (n : Nat) : Nat := if n ≤ 65535 then n else (Config.longCorrection n).toNat

/-- The argument form of an epoch: 0xFFFF for none (R196). -/
def epochCode : Option Byte → Nat
  | some e => e.toNat
  | none => 0xFFFF

/-- The argument form of a hop position: 0 for the unknown mark (R196). -/
def hopCode : Option Byte → Nat
  | some h => h.toNat
  | none => 0

/-- The argument form of a campus time: day and second of day (R196). -/
def encCampus (day : Word16) (ms : Nat) : List Byte := enc16 day.toNat ++ enc24 (ms / 1000)

/-- The campus time of this moment as an argument, or the invalid mark (R196). -/
def State.campusArg (s : State) : List Byte :=
  if s.tb.quality = .invalid then [0xFF, 0xFF, 0xFF, 0xFF, 0xFF] else encCampus s.tb.day s.tb.ms

/-! ## Notices (R184) -/

/-- The notice classes. -/
inductive NoticeClass where
  | line | time | bell | page | clock | supervision | fire | drill | mgmt
deriving DecidableEq, Repr

/-- R196: class codes 1 to 9. -/
def NoticeClass.code : NoticeClass → Nat
  | .line => 1 | .time => 2 | .bell => 3 | .page => 4 | .clock => 5 | .supervision => 6 | .fire => 7 | .drill => 8
  | .mgmt => 9

/-- R184, R197: whether a class is enabled; FIRE always is. -/
def NoticeClass.enabled (enables : Byte) : NoticeClass → Bool
  | .line => enables.getLsbD 0
  | .time => enables.getLsbD 1
  | .bell => enables.getLsbD 2
  | .page => enables.getLsbD 3
  | .clock => enables.getLsbD 4
  | .supervision => enables.getLsbD 5
  | .drill => enables.getLsbD 6
  | .mgmt => enables.getLsbD 7
  | .fire => true

/-- R196: the payload of a notice raised now. -/
def State.noticePayload (s : State) (cls : NoticeClass) (code : Nat) (args : List Byte) : List Byte :=
  enc8 cls.code ++ enc8 code ++ enc16 s.mu.addr.toNat ++
    (if s.tb.quality = .invalid then enc16 0 ++ enc32 0xFFFFFFFF else enc16 s.tb.day.toNat ++ enc32 s.tb.ms) ++
    enc8 args.length ++ args

/-- R184: a block raises a notice. -/
def State.raise (s : State) (cls : NoticeClass) (code : Nat) (args : List Byte) : State :=
  if cls.enabled s.mu.node.enables then
    s.joinOwn (ownFrame 0x42 0 (s.noticePayload cls code args)) .own .noticesLost
  else s

/-! ## Replies (R176) -/

/-- R176, R196: the status codes 0 to 9. -/
inductive Status where
  | ok | badSpace | badRange | badRecord | bankActive | pendingSwap | order | busy | denied | badState
deriving DecidableEq, Repr

def Status.code : Status → Nat
  | .ok => 0 | .badSpace => 1 | .badRange => 2 | .badRecord => 3 | .bankActive => 4 | .pendingSwap => 5 | .order => 6
  | .busy => 7 | .denied => 8 | .badState => 9

/-- The frame of a reply. -/
def replyFrame (tag req : Byte) (st : Status) (results : List Byte) : Frame :=
  ownFrame 0x41 tag (req :: enc8 st.code ++ results)

/-- R176: a reply is made; one whose status is not OK is counted MGMT_REFUSED. -/
def State.reply (s : State) (tag req : Byte) (st : Status) (results : List Byte) : State :=
  (if st = .ok then s else s.count .mgmtRefused).joinOwn (replyFrame tag req st results) .own .repliesLost

end Sys2Proof.Machine
end

