-- ==== Sys2Proof/Machine/Flags.lean ====
section
/-! DEFINITION. The conditions one block reads from another: mutes, isolation, the driven reports, the standing conditions
and the indicator lines. Each is computed from its owner's state and held nowhere else. -/

namespace Sys2Proof.Machine

/-- R85: the fire mute. -/
def State.fireMute (s : State) : Bool :=
  match s.fdc.fire with
  | .active => true
  | .clearing => true
  | .quiet => false
  | .pending => false

/-- The drill states in which the drill mute is on (R85, R160). -/
def DrillPhase.mutes : DrillPhase → Bool
  | .preAlert => true
  | .evacuate => true
  | .hold => true
  | .armed => false
  | .allClear => false

/-- R85: the drill mute. -/
def State.drillMute (s : State) : Bool :=
  match s.fdc.drill with
  | some d => d.phase.mutes
  | none => false

/-- R89: the output's circuit is in FAULT with its isolated flag set. -/
def State.isolated (s : State) (o : Output) : Bool :=
  decide ((s.circ (circuitOf o)).state = .fault) && (s.circ (circuitOf o)).isolated

/-- R85: the three conditions that block a claim. -/
def State.blocked (s : State) (o : Output) (c : Claim) : Bool :=
  (decide ((s.out o).force = .off) && decide (2 ≤ c.cls)) || (s.fireMute && decide (3 ≤ c.cls)) ||
    (s.drillMute && (s.attr o).evac && decide (4 ≤ c.cls))

/-- R87: the relay of a bell circuit is closed: the ON phase of a tone, or a CONTINUOUS claim. The play state of an
isolated output is silent, so its relay is open (R89). -/
def Play.closesRelay : Play → Bool
  | .tone pos _ => pos.on
  | .continuous => true
  | .silent => false
  | .finished => false
  | .page _ _ _ => false

/-- R90: a bell circuit is driven while its relay is closed, a speaker zone while it has a winner and is not isolated. -/
def State.outputDriven (s : State) (o : Output) : Bool :=
  if o.val < 16 then (s.out o).play.closesRelay else (s.out o).winner.isSome && !s.isolated o

/-- R125: a clock line is driven while a pulse is in flight. -/
def State.lineDriven (s : State) (k : LineNo) : Bool := (s.clockLine k).pulse.isSome

/-- The driven report of a circuit (R90, R125). -/
def State.driven (s : State) (c : Circuit) : Bool :=
  match outputOf c with
  | some o => s.outputDriven o
  | none =>
    match lineOf c with
    | some k => s.lineDriven k
    | none => false

/-- A line of type MINUTE or HALF in SUSPENDED, UNKNOWN_WAIT or NO_TIME (R186). -/
def State.clockWaiting (s : State) (k : LineNo) : Bool :=
  match (s.clockCfg k).type, (s.clockLine k).mode with
  | .off, _ => false
  | _, .suspended => true
  | _, .unknownWait => true
  | _, .noTime => true
  | _, _ => false

/-- R186: the standing conditions, in the order LINE, TIME, CLOCK, SUPERVISION, FIRE, DRILL. -/
def State.standing (s : State) : List Bool :=
  [ decide (s.line.up.link ≠ .active ∨ s.line.down.link ≠ .active),
    decide (s.tb.quality ≠ .synced),
    allLines.any s.clockWaiting,
    allCircuits.any (fun c => decide ((s.circ c).state = .fault)),
    s.fireMute || s.fdc.trouble,
    s.fdc.drill.isSome ]

/-- R186: an indicator line is on while a class steered to it holds its standing condition; its level while the node is
held in reset is a free value. -/
def State.indicator (s : State) (which : Steer) : Bool :=
  if s.held then Config.indicatorWhileHeld (decide (which = .indB))
  else (s.mu.node.steering.toList.zip s.standing).any (fun p => decide (p.1 = which) && p.2)

end Sys2Proof.Machine
end

