-- ==== Sys2Proof/Machine/Scan.lean ====
section
/-! DEFINITION. The supervision scan of Chapter 8: which circuit is visited next (R141), the skipping of driven circuits
(R142), and the discarding of a dwell whose circuit becomes driven (R143). -/

namespace Sys2Proof.Machine

/-- The enabled circuits in the order of the visits after circuit c: ascending above c, then from 0 to c (R141). -/
def State.visitOrder (s : State) (c : Circuit) : List Circuit :=
  (allCircuits.filter (fun d => decide (c < d)) ++ allCircuits.filter (fun d => decide (d ≤ c))).filter
    (fun d => (s.supCfg d).enabled)

/-- R142: a visit of circuit d that finds it not driven starts a dwell of the length the configuration holds now. -/
def State.startDwell (s : State) (d : Circuit) : State := s.setScan (.dwell d s.now ((s.supCfg d).dwell * 1000))

/-- R141, R142: the visits of a list of circuits, in order, up to the first that is not driven. When all are driven the
scan parks at the circuit passed last; the skips that go on at once, here and while it is parked (skipsGoOn), are free
numbers (assumption log 5). -/
def visit (last : Circuit) : List Circuit → State → State
  | [], s => ((s.countN .skipped (Config.skipsWhileAllDriven s.draw.1)).draw.2).setScan (.parked last)
  | d :: ds, s => if s.driven d then visit d ds (s.count .skipped) else s.startDwell d

/-- R141: the scan goes on from circuit c; it is idle when no circuit is enabled. -/
def State.scanNext (s : State) (c : Circuit) : State :=
  match s.visitOrder c with
  | [] => s.setScan .idle
  | d :: ds => visit c (d :: ds) s

/-- R141, R152: the scan starts with the lowest enabled circuit. -/
def State.scanFromLowest (s : State) : State := s.scanNext 31

/-- R143: what the driven reports as they now stand do to the scan. A dwell whose circuit is driven ends without a reading
and is counted READING_DISCARDED; a parked scan goes on once an enabled circuit is not driven. -/
def settleScan (s : State) : State :=
  match s.csv.scan with
  | .idle => s
  | .dwell c _ _ => if s.driven c then (s.count .readingDiscarded).scanNext c else s
  | .parked c => if (s.visitOrder c).all s.driven then s else s.scanNext c

end Sys2Proof.Machine
end

