-- ==== Sys2Proof/Machine/Arbiter.lean ====
section
/-! DEFINITION. The Zone Arbiter of Chapter 5: claims joining and leaving (R81, R82), the choice of winners (R84), what
a new winner does to the output (R86 to R89), the tones (R94, R95) and the page gain (R109). A batch of changes ends with
one rechooseAll, which takes the driven reports to the scan. -/

namespace Sys2Proof.Machine

/-! ## Samples -/

/-- sin(2π k / 80) × 2^48 rounded to nearest, for k of 0 to 20. -/
def quarterSine : List Nat :=
  [0, 22084272142734, 44032387403943, 65709028354552, 86980551294885, 107715810212518, 127786965341048,
   147070271334773, 165446840199891, 182803374278519, 199032864766430, 214033251457913, 227718039650213,
   239996870404138, 250796040644963, 260048969897066, 267698610774696, 273697800698078, 278009552666403,
   280607283294981, 281474976710656]

/-- sin(2π k / 80) × 2^48, rounded to nearest. -/
def sine80 (k : Nat) : Int :=
  let k := k % 80
  if k ≤ 20 then (quarterSine.getD k 0 : Nat)
  else if k ≤ 40 then (quarterSine.getD (40 - k) 0 : Nat)
  else if k ≤ 60 then -((quarterSine.getD (k - 40) 0 : Nat) : Int)
  else -((quarterSine.getD (80 - k) 0 : Nat) : Int)

/-- R95: the peak amplitude at a tone level. -/
def tonePeak (level : Nat) : Nat := (roundHalfAway ((level : Int) * 32767) 255).toNat

/-- R95: sample n of an ON phase of pitch k: a tone of 300 + 100 × k Hz at 8,000 samples per second, phase 0 at n = 0;
pitch 0 is silent on speakers (R93). -/
def toneSample (level pitch n : Nat) : Int :=
  if pitch = 0 then 0 else roundHalfAway (tonePeak level * sine80 (n * (3 + pitch))) (2 ^ 48)

/-- R109: the exact product before saturation. -/
def scaledSample (x : Int) (gp gz : Nat) : Int := roundHalfAway (x * gp * gz) 16384

/-- R109: a sample as played. -/
def playedSample (x : Int) (gp gz : Nat) : Int := clampInt (-32768) 32767 (scaledSample x gp gz)

/-- R109: a sample that saturates. -/
def saturates (gp gz : Nat) (x : Int) : Bool := decide (scaledSample x gp gz ≠ playedSample x gp gz)

/-- R88: the index of the current sample of a frame or ON phase that began at `since`. The 125 µs sample periods are counted
from that start, also where it falls between two ticks of the 8 kHz sample clock: the manual gives no alignment of a start to
the clock, and no sample clock is held (DESIGN CHOICE, unsafe, assumption log 50). -/
def State.sampleIndex (s : State) (since : Nat) : Nat := (s.now - since) / Config.sampleUs

/-! ## Claims and winners -/

/-- R84: the claim of lowest class, the earliest joined among equals. -/
def leading : List Claim → Option Claim
  | [] => none
  | c :: cs =>
    match leading cs with
    | none => some c
    | some d => if c.cls ≤ d.cls then some c else some d

/-- R84: the claim that the choice of winner gives for an output now. -/
def State.choice (s : State) (o : Output) : Option Claim :=
  leading ((s.out o).claims.filter (fun c => !s.blocked o c))

/-- The claim of the output's winner. -/
def OutputState.winning (v : OutputState) : Option Claim :=
  match v.winner with
  | some src => v.claims.find? (fun c => decide (c.source = src))
  | none => none

/-- R109: the first sample from index i on that saturates. -/
def firstSaturated (gp gz i : Nat) (xs : List Int) : Option Nat :=
  ((xs.drop i).findIdx? (saturates gp gz)).map (· + i)

/-- R86, R88, R109: a page claim plays the point its call has reached: the zone gain and the tone level are read now, and
the moment from which the first sample still to be heard that saturates is played here is noted. A call reopened in the middle
of a frame is such a claim too on a zone that it kept as winner: its remade claim reads the zone gain anew for the rest of the
frame (DESIGN CHOICE, unsafe, assumption log 52). -/
def State.pagePlay (s : State) (o : Output) (r : Fin 8) : Play :=
  let gz := (s.attr o).gain
  let clip : Option Nat :=
    match (s.call r).bind (·.inPlay) with
    | some ⟨.samples xs, since, gp⟩ =>
      (firstSaturated gp gz (s.sampleIndex since) xs).map (fun i => max s.now (since + i * Config.sampleUs))
    | some ⟨.silence, _, _⟩ => none
    | none => none
  .page gz (s.attr o).level clip

/-- R86, R89: what an output plays when its winner takes it now. -/
def State.winnerPlay (s : State) (o : Output) : Play :=
  if s.isolated o then .silent
  else
    match (s.out o).winning with
    | none => .silent
    | some c =>
      match c.content, c.source with
      | .tone p, _ => if p.steps = [] then .finished else .tone ⟨0, true, s.now⟩ (s.attr o).level
      | .continuous, _ => .continuous
      | .page, .page r => s.pagePlay o r
      | .page, _ => .silent

/-- R109: a frame with a saturated sample that has been played on this output is counted CLIPPED, once. -/
def State.settleClip (s : State) (o : Output) : State :=
  match (s.out o).play, (s.out o).winner with
  | .page gz level (some t), some (.page r) =>
    let s' := s.setOut o { s.out o with play := .page gz level none, clipped := (s.out o).clipped.set r true }
    if t < s.now ∧ (s.out o).clipped[r] = false then s'.count .clipped else s
  | _, _ => s

/-- The output stops playing what it plays (R86, R89). -/
def State.stopPlay (s : State) (o : Output) : State :=
  (s.settleClip o).setOut o { (s.settleClip o).out o with play := .silent }

/-- R86: the output's winner takes the output now. -/
def State.takeOutput (s : State) (o : Output) : State :=
  (s.stopPlay o).setOut o { (s.stopPlay o).out o with play := (s.stopPlay o).winnerPlay o }

/-- R84, R86: the winner is chosen anew; the same claim as before changes nothing. -/
def State.rechoose (s : State) (o : Output) : State :=
  if (s.choice o).map (·.source) = (s.out o).winner then s
  else
    let t := s.stopPlay o
    (t.setOut o { t.out o with winner := (s.choice o).map (·.source) }).takeOutput o

/-- R82: the winner of each output concerned is chosen once, and the driven reports reach the scan (R90, R143). -/
def rechooseAll (os : List Output) (s : State) : State := settleScan (os.foldl State.rechoose s)

/-- R82: the claim of a source leaves the list; as winner it stops being heard at once. -/
def State.dropClaim (s : State) (src : Source) (o : Output) : State :=
  if (s.out o).claims.any (fun c => decide (c.source = src)) then
    let t := if (s.out o).winner = some src then
        (s.stopPlay o).setOut o { (s.stopPlay o).out o with winner := none } else s
    t.setOut o { t.out o with claims := (t.out o).claims.filter (fun c => decide (c.source ≠ src)) }
  else s

/-- R81: a claim joins at the tail, replacing a claim of the same source; on an isolated output it is counted
UNDELIVERED. -/
def State.addClaim (s : State) (c : Claim) (o : Output) : State :=
  let t := s.dropClaim c.source o
  let t := t.setOut o { t.out o with claims := (t.out o).claims ++ [c] }
  if t.isolated o then t.count .undelivered else t

/-- R79: the class of a page call's claims. -/
def pageClass (priority : Nat) : Nat :=
  match priority with
  | 0 => 2
  | 1 => 3
  | 2 => 4
  | _ => 6

/-- R89: isolation begins on an output. -/
def isolationBegins (s : State) (o : Output) : State := settleScan (s.stopPlay o)

/-- R89: isolation is lifted and the winner takes the output. -/
def isolationLifted (s : State) (o : Output) : State := settleScan (s.takeOutput o)

/-! ## Tones -/

/-- The local time at which the present phase of a pattern ends. -/
def phaseEnd (p : TonePattern) (pos : TonePos) : Nat :=
  match p.steps[pos.step]? with
  | some st => pos.since + (if pos.on then st.on else st.off) * 10000
  | none => pos.since

/-- R94: the phase after the last OFF phase: step 1 with repeat, nothing without. -/
def afterStep (p : TonePattern) (again : Bool) (step now : Nat) : Option TonePos :=
  if step + 1 < p.steps.length then some ⟨step + 1, true, now⟩
  else if again then some ⟨0, true, now⟩
  else none

/-- R94: the place after the end of a phase. An OFF phase of 0 ms is passed at once. -/
def nextPos (p : TonePattern) (again : Bool) (pos : TonePos) (now : Nat) : Option TonePos :=
  match p.steps[pos.step]? with
  | some st => if pos.on ∧ 0 < st.off then some ⟨pos.step, false, now⟩ else afterStep p again pos.step now
  | none => none

/-- R94: the length of one pass, in µs. -/
def passUs (p : TonePattern) : Nat := p.steps.foldl (fun t st => t + (st.on + st.off) * 10000) 0

/-- R94: the phase of the pattern on an output ends. The tone level is read at the start of each ON phase (R95). -/
def State.outputPhaseEnd (s : State) (o : Output) : State :=
  match (s.out o).play, (s.out o).winning with
  | .tone pos level, some ⟨_, _, .tone p, _⟩ =>
    if phaseEnd p pos ≤ s.now then
      match nextPos p p.repeats pos s.now with
      | some pos' =>
        settleScan (s.setOut o
          { s.out o with play := .tone pos' (if pos'.on then (s.attr o).level else level) })
      | none => settleScan (s.setOut o { s.out o with play := .finished })
    else s
  | _, _ => s

/-- R88, R46: at the start of an ON phase of a chime, a zone where its call is winner reads its tone level. -/
def State.readLevel (s : State) (r : Fin 8) (o : Output) : State :=
  match (s.out o).play with
  | .page gz _ clip =>
    if (s.out o).winner = some (.page r) then
      s.setOut o { s.out o with play := .page gz (s.attr o).level clip } else s
  | _ => s

/-- R94, R103: a phase of a call's chime ends; a chime is played once whatever its repeat flag. -/
def State.chimePhaseEnd (s : State) (r : Fin 8) : State :=
  match s.call r with
  | some c =>
    match c.state, c.chime, c.chimePos with
    | .chime, some p, some pos =>
      if phaseEnd p pos ≤ s.now then
        let pos' := nextPos p false pos s.now
        let t := s.setCall r (some { c with chimePos := pos' })
        if (pos'.map (·.on)).getD false then c.zones.foldl (fun t o => t.readLevel r o) t else t
      else s
    | _, _, _ => s
  | none => s

/-! ## What the outputs carry -/

/-- R87: the relay of bell circuit o is closed; while the node is held in reset it is open (R191). -/
def State.relayClosed (s : State) (o : Output) : Bool := !s.held && decide (o.val < 16) && (s.out o).play.closesRelay

/-- R88: the sample that speaker zone o carries now. -/
def State.speakerSample (s : State) (o : Output) : Int :=
  if s.held then 0
  else
    match (s.out o).play, (s.out o).winning with
    | .tone pos level, some ⟨_, _, .tone p, _⟩ =>
      match p.steps[pos.step]?, pos.on with
      | some st, true => toneSample level st.pitch (s.sampleIndex pos.since)
      | _, _ => 0
    | .page gz level _, some ⟨.page r, _, _, _⟩ =>
      match s.call r with
      | some c =>
        match c.state, c.chime, c.chimePos with
        | .chime, some p, some pos =>
          match p.steps[pos.step]?, pos.on with
          | some st, true => toneSample level st.pitch (s.sampleIndex pos.since)
          | _, _ => 0
        | .chime, _, _ => 0
        | _, _, _ =>
          match c.inPlay with
          | some ⟨.samples xs, since, gp⟩ => playedSample (xs.getD (s.sampleIndex since) 0) gp gz
          | _ => 0
      | none => 0
    | _, _ => 0

end Sys2Proof.Machine
end

