-- ==== Sys2Proof/Machine/Clocks.lean ====
section
/-! DEFINITION. The Clock Line Driver of Chapter 7: the true position (R121), the evaluation (R122 to R124), pulses (R125 to
R129), pending positions (R131) and type changes (R132). -/

namespace Sys2Proof.Machine

/-- R118: the dial of a type, 0 for OFF. -/
def ClockType.dial : ClockType → Nat
  | .off => 0
  | .minute => 720
  | .half => 1440

/-- R118: the step time of a type in ms, 0 for OFF. -/
def ClockType.stepMs : ClockType → Nat
  | .off => 0
  | .minute => 60000
  | .half => 30000

/-- R121: the true position at ms-of-day T. -/
def truePosition (t : ClockType) (ms : Nat) : Nat := ms / t.stepMs % t.dial

/-- R123: how many positions the hands must move forward, d = (P − I) modulo the dial. -/
def distance (t : ClockType) (ms i : Nat) : Nat := (truePosition t ms + (t.dial - i % t.dial)) % t.dial

def Polarity.other : Polarity → Polarity
  | .a => .b
  | .b => .a

/-- R120: the retained type that goes with a configured type. -/
def ClockType.kept : ClockType → Option ClockType
  | .off => none
  | t => some t

/-- The modes whose entry or leaving raises MODE and ends a correction record (R135). -/
def ClockMode.waits : ClockMode → Bool
  | .suspended => true
  | .unknownWait => true
  | .noTime => true
  | .off => true
  | .inStep => false
  | .advance => false
  | .hold => false

/-- R123: the mode an evaluation gives a line of type MINUTE or HALF, with d where it is formed. -/
def State.evalMode (s : State) (k : LineNo) : ClockMode × Nat :=
  if s.tb.quality = .invalid then (.noTime, 0)
  else
    match (s.retained k).position with
    | none => (.unknownWait, 0)
    | some i =>
      if (s.circ (circuitOfLine k)).state = .fault then (.suspended, 0)
      else
        let t := (s.clockCfg k).type
        let d := distance t s.tb.ms i
        if d = 0 then (.inStep, 0)
        else if d < t.dial - (s.clockCfg k).window then (.advance, d)
        else (.hold, d)

/-- R135: the notices and the correction record of a line that takes a mode. A count above 65,535 is sent as a free value
(the model's choice, assumption log 37). -/
def State.enterMode (s : State) (k : LineNo) (m : ClockMode) (d : Nat) : State :=
  let old := (s.clockLine k).mode
  let i := posCode (s.retained k).position
  let s := if old ≠ m ∧ (old.waits ∨ m.waits) then
      s.raise .clock 1 (enc8 k.val ++ enc8 old.code ++ enc8 m.code ++ enc16 i) else s
  let correcting : Bool := (decide (m = .hold) && decide (old ≠ .hold)) ||
    (decide (m = .advance) && decide (old ≠ .advance) && decide (2 ≤ d))
  let s := if correcting then
      s.raise .clock 2 (enc8 k.val ++ enc8 m.code ++ enc16 i ++
        enc16 (truePosition (s.clockCfg k).type s.tb.ms) ++ enc16 d) else s
  let s :=
    match (s.clockLine k).correction, m with
    | some n, .inStep => s.raise .clock 3 (enc8 k.val ++ enc16 (corrCode n) ++ enc16 i)
    | _, _ => s
  let corr : Option Nat :=
    if correcting then some 0
    else if m.waits ∨ m = .inStep then none
    else (s.clockLine k).correction
  s.setClockLine k { s.clockLine k with mode := m, correction := corr }

/-- R125: the polarity of the next pulse of a line. -/
def State.nextPolarity (s : State) (k : LineNo) : Polarity :=
  match (s.clockCfg k).polarity with
  | .polarized => (s.retained k).polarity.other
  | .same => (s.retained k).polarity

/-- R125, R126: a pulse is started with the width and limits of the configuration as it stands; with the circuit not
enabled in SUPCFG its check result is GOOD and no reading is taken. The driven report reaches the scan line by line where one
event starts several pulses, so a dwell that moved on to the next line in that instant is discarded and not skipped (R143;
DESIGN CHOICE, unsafe, assumption log 43). -/
def State.startPulse (s : State) (k : LineNo) : State :=
  let c := s.clockCfg k
  settleScan (s.setClockLine k
    { s.clockLine k with
      gapEnd := none,
      pulse := some
        { polarity := s.nextPolarity k, start := s.now, due := s.now + c.width * 1000, midDue := s.now + c.width * 500,
          result := if (s.supCfg (circuitOfLine k)).enabled then .pending else .good,
          openLim := c.openLim, shortLim := c.shortLim } })

/-- What the two terminals of a line carry: nothing, or the polarity of the pulse in flight; while the node is held in
reset they are not driven (R125, R191). -/
def State.terminals (s : State) (k : LineNo) : Option Polarity :=
  if s.held then none else (s.clockLine k).pulse.map (·.polarity)

/-- R124: in ADVANCE a pulse is started once g has passed since the last pulse end; until then the gap wait runs, and a
gap wait already running keeps its end. -/
def State.pulseOrWait (s : State) (k : LineNo) : State :=
  let ln := s.clockLine k
  match ln.gapEnd with
  | some e => if s.now < e then s else s.startPulse k
  | none =>
    match ln.lastEnd with
    | none => s.startPulse k
    | some l =>
      if l + (s.clockCfg k).gap * 1000 ≤ s.now then s.startPulse k
      else s.setClockLine k { ln with gapEnd := some (l + (s.clockCfg k).gap * 1000) }

/-- R122 to R124: an evaluation of a line. A line with a pulse in flight is not evaluated; a line of type OFF holds mode
OFF; any mode other than ADVANCE cancels a gap wait. -/
def State.evaluate (s : State) (k : LineNo) : State :=
  if (s.clockLine k).pulse.isSome then s
  else if (s.clockCfg k).type = .off then
    let t := s.enterMode k .off 0
    t.setClockLine k { t.clockLine k with gapEnd := none }
  else
    let m := s.evalMode k
    let t := s.enterMode k m.1 m.2
    if m.1 = .advance then t.pulseOrWait k
    else t.setClockLine k { t.clockLine k with gapEnd := none }

/-- R131: the retained record with a pending position taken up. -/
def takePending (p : Option PendingPos) (r : Retained) : Retained :=
  match p with
  | none => r
  | some .unknown => { r with position := none, valid := false }
  | some (.position i pol) => { r with position := some i, valid := true, polarity := pol.getD r.polarity }

/-- R129: the advance of a counted pulse. -/
def advanceRecord (dial : Nat) (pol : Polarity) (r : Retained) : Retained :=
  { r with position := r.position.map (fun i => (i + 1) % dial), polarity := pol }

/-- R127 to R129, R131: the end of a pulse, counted or not: the retained record is written with the pending position taken
up, the last pulse end becomes this moment, the driven report ends, and the line is evaluated. -/
def State.endPulse (s : State) (k : LineNo) (pol : Polarity) (counted : Bool) : State :=
  let ln := s.clockLine k
  let r := s.retained k
  let r := if counted then advanceRecord (s.clockCfg k).type.dial pol r else r
  let s := s.setRetained k { takePending ln.pending r with type := (s.clockCfg k).type.kept }
  let s := if counted then s.count .pulsesDelivered else s
  let s := s.setClockLine k
    { ln with pulse := none, pending := none, lastEnd := some s.now,
              correction := if counted then ln.correction.map (· + 1) else ln.correction }
  (settleScan s).evaluate k

/-- R130: a RESYNC taken with no pulse in flight. -/
def State.resync (s : State) (k : LineNo) (i : Nat) (pol : Option Polarity) : State :=
  let s := s.setRetained k
    { takePending (some (.position i pol)) (s.retained k) with type := (s.clockCfg k).type.kept }
  s.evaluate k

/-- R132: a type change, the new configuration already written. -/
def State.typeChange (s : State) (k : LineNo) : State :=
  let ln := s.clockLine k
  if ln.pulse.isSome then s.setClockLine k { ln with pending := some .unknown }
  else
    let s := s.setRetained k { s.retained k with position := none, valid := false, type := (s.clockCfg k).type.kept }
    (s.setClockLine k { ln with gapEnd := none, correction := none }).evaluate k

/-- R132, R133: what a CLOCKCFG write does to a line whose record was `old`, the new configuration already written. -/
def State.clockCfgChanged (k : LineNo) (old : ClockCfg) (s : State) : State :=
  if (s.clockCfg k).type ≠ old.type then s.typeChange k
  else if s.clockCfg k ≠ old then s.evaluate k
  else s

end Sys2Proof.Machine
end

