-- ==== Sys2Proof/Machine/Supervise.lean ====
section
/-! DEFINITION. The Circuit Supervisor of Chapter 8: the judging of readings (R144 to R146), the entry to FAULT from the
scan and from a pulse (R145, R149), and the leaving of FAULT (R146 to R148, R150). -/

namespace Sys2Proof.Machine

/-- What the readers of a circuit's record do when its isolation or FAULT state begins (R89, R134). -/
def State.faultSeen (s : State) (c : Circuit) : State :=
  match outputOf c, lineOf c with
  | some o, _ => if (s.circ c).isolated then isolationBegins s o else s
  | none, some k => s.evaluate k
  | none, none => s

/-- R147: what the readers do when a circuit has left FAULT; `was` is whether it was isolated. -/
def State.faultLeft (s : State) (c : Circuit) (was : Bool) : State :=
  match outputOf c, lineOf c with
  | some o, _ => if was then isolationLifted s o else s
  | none, some k => s.evaluate k
  | none, none => s

/-- R145, R149: entry to FAULT: the record in one act, FAULTS_ENTERED, the notice FAULT, then the readers. The isolated flag in
the notice is 1 for set and 0 for clear, a code that R196 does not state (DESIGN CHOICE, unsafe, assumption log 48). -/
def State.enterFault (s : State) (c : Circuit) (kind : FaultKind) (reading : Byte) (isolate fromPulse : Bool) : State :=
  let s := s.setCirc c ⟨.fault, 0, some kind, isolate, false, some reading⟩
  let s := s.count .faultsEntered
  let s := s.raise .supervision 1
    (enc8 c.val ++ enc8 kind.code ++ [reading] ++ enc8 (flagBit isolate 0) ++ enc8 (flagBit fromPulse 0))
  s.faultSeen c

/-- R151: the causes of RECOVERED. -/
inductive RecoverCause where
  | auto
  | request
  | disabled
deriving DecidableEq, Repr

def RecoverCause.code : RecoverCause → Nat
  | .auto => 0 | .request => 1 | .disabled => 2

/-- R146 to R148, R150: a circuit leaves FAULT with the record given. -/
def State.leaveFault (s : State) (c : Circuit) (cr : CircRecord) (cause : RecoverCause) : State :=
  let old := s.circ c
  let s := s.setCirc c cr
  let s := s.count .circRecoveries
  let s := s.raise .supervision 4 (enc8 c.val ++ enc8 cause.code ++ enc8 (kindCode old.kind))
  s.faultLeft c old.isolated

/-- R145: an out-of-band reading of a circuit outside FAULT. -/
def State.outOfBand (s : State) (c : Circuit) (kind : FaultKind) (reading : Byte) : State :=
  let cfg := s.supCfg c
  let cr := s.circ c
  if cfg.n ≤ cr.count + 1 then
    s.enterFault c kind reading ((outputOf c).isSome && cfg.autoIsolate) false
  else s.setCirc c { cr with state := .alert, count := cr.count + 1, last := some reading }

/-- R146: an out-of-band reading of a circuit in FAULT. -/
def State.faultOutOfBand (s : State) (c : Circuit) (kind : FaultKind) (reading : Byte) : State :=
  let cr := s.circ c
  let s := s.setCirc c { cr with kind := some kind, recoverable := false, last := some reading }
  if cr.kind = some kind then s
  else s.raise .supervision 2 (enc8 c.val ++ enc8 (kindCode cr.kind) ++ enc8 kind.code ++ [reading])

/-- R146: an inner-band reading of a circuit in FAULT. -/
def State.faultInner (s : State) (c : Circuit) (reading : Byte) : State :=
  let cr := s.circ c
  if (s.supCfg c).autoRecover then
    s.leaveFault c { CircRecord.fresh with last := some reading } .auto
  else
    let s := s.setCirc c { cr with recoverable := true, last := some reading }
    if cr.recoverable then s else s.raise .supervision 3 (enc8 c.val ++ [reading])

/-- 8.3: a reading is judged. -/
def State.judge (s : State) (c : Circuit) (reading : Byte) : State :=
  let cfg := s.supCfg c
  let cr := s.circ c
  let r := reading.toNat
  if cr.state = .fault then
    if r < cfg.lo then s.faultOutOfBand c .short reading
    else if cfg.hi < r then s.faultOutOfBand c .openLine reading
    else if cfg.lo + cfg.h ≤ r ∧ r + cfg.h ≤ cfg.hi then s.faultInner c reading
    else s.setCirc c { cr with last := some reading }
  else if r < cfg.lo then s.outOfBand c .short reading
  else if cfg.hi < r then s.outOfBand c .openLine reading
  else s.setCirc c { cr with state := .normal, count := 0, last := some reading }

/-- R149: a current fault found in a pulse of line k. It is not taken when the circuit has been disabled. A circuit disabled
and enabled again within the pulse meets both bullets of R149, and its entry is taken (DESIGN CHOICE, unsafe, assumption
log 41). -/
def State.currentFault (s : State) (k : LineNo) (kind : FaultKind) (reading : Byte) : State :=
  let c := circuitOfLine k
  if (s.supCfg c).enabled ∧ (s.circ c).state ≠ .fault then s.enterFault c kind reading false true else s

/-- R150: the record of a circuit that a write disables. A circuit in FAULT leaves it. -/
def State.disable (s : State) (c : Circuit) : State :=
  if (s.circ c).state = .fault then s.leaveFault c .fresh .disabled else s.setCirc c .fresh

end Sys2Proof.Machine
end

