-- ==== Sys2Proof/Machine/Zones.lean ====
section
/-! DEFINITION. The Zone Map of Chapter 3: the search of the windows (R44), bad targets (R47), the three resolutions (R49 to
R51) and the steps of a SELECT frame (R53 to R55). A set of outputs is the list of its members in ascending order. -/

namespace Sys2Proof.Machine

/-- What the search for one campus zone gives (R44). -/
inductive ZoneHit where
  | notLocal
  | output (o : Output)
  | overflow
deriving DecidableEq, Repr

/-- R44: the output a local index names. -/
def indexHit (kind : OutputKind) (index : Nat) : ZoneHit :=
  match kind with
  | .bell => if h : index < 16 then .output ⟨index, by omega⟩ else .overflow
  | .speaker => if h : index < 8 then .output ⟨16 + index, by omega⟩ else .overflow

/-- R44: a window that covers zone z for a wanted kind. -/
def Window.covers (w : Window) (kind : OutputKind) (z : Nat) : Bool :=
  w.enabled && decide (w.kind = kind) && decide (w.start ≤ z) && decide (z ≤ w.stop)

/-- R44: one search of the windows, in index order, stopping at the first that covers the zone. -/
def searchZone (kind : OutputKind) (z : Nat) : List Window → ZoneHit
  | [] => .notLocal
  | w :: ws => if w.covers kind z then indexHit kind (w.base + (z - w.start)) else searchZone kind z ws

/-- The searches of a RANGE for one kind, zone by zone. -/
def ZoneMap.rangeHits (m : ZoneMap) (kind : OutputKind) (lo hi : Nat) : List ZoneHit :=
  (List.range (hi + 1 - lo)).map (fun i => searchZone kind (lo + i) m.windows.toList)

/-- R47: a bad target specification. -/
def Target.bad (t : Target) : Bool :=
  decide (3 < t.mode.toNat) || (decide (t.mode = 0) && (decide (4095 < t.hi) || decide (t.hi < t.lo)))

/-- What a resolution gives: the set, in ascending order, and the zones dropped as MAP_OVERFLOW. -/
structure Resolved where
  set      : List Output
  overflow : Nat
deriving DecidableEq, Repr

/-- R44, R50, R57: the zones of a RANGE dropped in a resolution, each counted once: by its search for SPEAKER or, where bell
circuits are wanted too, by either search. -/
def ZoneMap.dropped (m : ZoneMap) (bells : Bool) (lo hi : Nat) : Nat :=
  ((List.range (hi + 1 - lo)).filter (fun i =>
    decide (searchZone .speaker (lo + i) m.windows.toList = .overflow) ||
      (bells && decide (searchZone .bell (lo + i) m.windows.toList = .overflow)))).length

def isBell (o : Output) : Bool := decide (o.val < 16)

/-- The outputs gathered by a target that is not bad, and the overflows met, for the kinds wanted (R49, R50 step 1). -/
def ZoneMap.gather (m : ZoneMap) (bells : Bool) (t : Target) : Resolved :=
  let wanted : Output → Bool := fun o => bells || !isBell o
  if t.mode = 0 then
    let hits := (if bells then m.rangeHits .bell t.lo t.hi else []) ++ m.rangeHits .speaker t.lo t.hi
    ⟨allOutputs.filter (fun o => decide (ZoneHit.output o ∈ hits)), m.dropped bells t.lo t.hi⟩
  else if t.mode = 1 then ⟨allOutputs.filter (fun o => wanted o && m.sel[o]), 0⟩
  else if t.mode = 2 then ⟨allOutputs.filter wanted, 0⟩
  else ⟨allOutputs.filter (fun o => wanted o && (m.attrs[o]).evac), 0⟩

/-- R49: the PAGE purpose. -/
def ZoneMap.resolvePage (m : ZoneMap) (t : Target) : Resolved :=
  if t.bad then ⟨[], 0⟩ else m.gather false t

/-- R50: the BELL purpose, in its three steps. -/
def ZoneMap.resolveBell (m : ZoneMap) (t : Target) (quietToo : Bool) : Resolved :=
  if t.bad then ⟨[], 0⟩
  else
    let g := m.gather true t
    ⟨(g.set.filter (fun o => isBell o || (m.attrs[o]).bellOnSpeaker)).filter
      (fun o => quietToo || !(m.attrs[o]).quiet), g.overflow⟩

/-- R51: the EVAC purpose. -/
def ZoneMap.resolveEvac (m : ZoneMap) : List Output := allOutputs.filter (fun o => (m.attrs[o]).evac)

/-- R47, R48: the counts of a resolution made for a BELL_NOW or PAGE_OPEN frame or a schedule entry. -/
def State.countResolution (s : State) (t : Target) (r : Resolved) : State :=
  (if t.bad then s.count .targetBad else s).countN .mapOverflow r.overflow

/-! ## SELECT -/

/-- One step of a SELECT frame, six bytes (R195). -/
structure SelectStep where
  scope : Byte
  field : Byte
  lo    : Byte
  hi    : Byte
  hit   : Byte
  miss  : Byte
deriving DecidableEq, Repr

/-- The step at index i of a SELECT payload. -/
def selectStepAt (payload : List Byte) (i : Nat) : SelectStep :=
  let a := 2 + 6 * i
  ⟨byteAt payload a, byteAt payload (a + 1), byteAt payload (a + 2), byteAt payload (a + 3), byteAt payload (a + 4),
    byteAt payload (a + 5)⟩

/-- R53: the codes of a step are among those named. -/
def SelectStep.good (t : SelectStep) : Bool :=
  decide (t.scope.toNat ≤ 2) && decide (t.field.toNat ≤ 6) && decide (t.hit.toNat ≤ 3) && decide (t.miss.toNat ≤ 3)

/-- R54: the record lies within the step's scope. -/
def SelectStep.inScope (t : SelectStep) (o : Output) : Bool :=
  decide (t.scope = 2) || (decide (t.scope = 0) && isBell o) || (decide (t.scope = 1) && !isBell o)

/-- R54: the value tested, none for ANY. -/
def SelectStep.value (t : SelectStep) (a : ZoneAttr) : Option Nat :=
  if t.field = 0 then some a.wing
  else if t.field = 1 then some a.floor
  else if t.field = 2 then some a.roomUse
  else if t.field = 3 then some a.grade
  else if t.field = 4 then some (flagBit a.quiet 0)
  else if t.field = 5 then some (flagBit a.evac 0)
  else none

/-- R54: the record matches. A step of field ANY matches every record also where its lo is above its hi, a range in which R53
has every record miss (DESIGN CHOICE, unsafe, assumption log 49). -/
def SelectStep.matchesRecord (t : SelectStep) (a : ZoneAttr) : Bool :=
  match t.value a with
  | some v => decide (t.lo.toNat ≤ v) && decide (v ≤ t.hi.toNat)
  | none => true

/-- R54: an action on a SEL flag: 0 KEEP, 1 SET, 2 CLEAR, 3 INVERT. -/
def selectAction (action : Byte) (flag : Bool) : Bool :=
  if action = 1 then true else if action = 2 then false else if action = 3 then !flag else flag

/-- R54: the SEL flag of a record after a step. -/
def SelectStep.flagAfter (t : SelectStep) (o : Output) (a : ZoneAttr) (flag : Bool) : Bool :=
  if t.inScope o then selectAction (if t.matchesRecord a then t.hit else t.miss) flag else flag

/-- R54: a step acts on every record; the test reads the records and never the flags. -/
def ZoneMap.applyStep (m : ZoneMap) (t : SelectStep) : ZoneMap :=
  { m with sel := Vector.ofFn (fun o : Output => t.flagAfter o m.attrs[o] m.sel[o]) }

/-- The steps of a SELECT that are checked and applied: the first eight (R53). -/
def selectSteps (payload : List Byte) : List SelectStep :=
  (List.range (min 8 (word16At payload 0).toNat)).map (selectStepAt payload)

/-- R53: the payload holds exactly the steps its count gives, at least one, and the first eight are good. -/
def selectGood (payload : List Byte) : Bool :=
  let n := (word16At payload 0).toNat
  decide (2 ≤ payload.length) && decide (n ≠ 0) && decide (payload.length = 2 + 6 * n) &&
    (selectSteps payload).all SelectStep.good

/-- R53, R55: a SELECT frame whose selector matches. -/
def State.takeSelect (s : State) (payload : List Byte) : State :=
  if selectGood payload then
    let s := { s with zm := (selectSteps payload).foldl ZoneMap.applyStep s.zm }
    if 8 < (word16At payload 0).toNat then s.count .selectTruncated else s
  else s.count .selectBad

end Sys2Proof.Machine
end

