-- ==== Sys2Proof/Machine/Drills.lean ====
section
/-! DEFINITION. The Fire and Drill Controller of Chapter 9: the drill run and its phases (R160 to R170), the roll-call record
(R171, R172), and the fire state (R154 to R158). Each event changes claims, mutes and state first and ends with one choice
of winners (R82). -/

namespace Sys2Proof.Machine

/-! ## Campus times -/

/-- R6: the ms from campus time (d1, t1) to campus time (d2, t2), the days' difference taken as a signed number. -/
def campusDiff (d1 : Word16) (t1 : Nat) (d2 : Word16) (t2 : Nat) : Int :=
  (d2 - d1).toInt * 86400000 + ((t2 : Int) - (t1 : Int))

/-! ## Claims of the FDC -/

/-- The FDC claims of a phase (R79): on the set, a claim of the class with the pattern as it stands in TONES; elsewhere the
FDC claim is released. -/
def State.fdcClaims (s : State) (set : List Output) (cls pattern : Nat) : State :=
  let p := s.za.tones.toList.getD pattern .factory
  allOutputs.foldl
    (fun s o => if o ∈ set then s.addClaim ⟨.fdc, cls, .tone p, none⟩ o else s.dropClaim .fdc o) s

/-- Every FDC claim is released. -/
def State.fdcRelease (s : State) : State := allOutputs.foldl (fun s o => s.dropClaim .fdc o) s

def State.setDrill (s : State) (d : Option Drill) : State := { s with fdc := { s.fdc with drill := d } }

def State.setRoll (s : State) (r : Option RollCall) : State := { s with fdc := { s.fdc with roll := r } }

/-! ## The roll-call record -/

/-- The inputs of a mask that hold a clear time. -/
def sweepsCleared (mask : Byte) (clear : Vector (Option Nat) 8) : Nat :=
  ((List.finRange 8).filter (fun i => mask.getLsbD i.val && (clear[i]).isSome)).length

/-- The inputs of a mask without a clear time. -/
def sweepsMissing (mask : Byte) (clear : Vector (Option Nat) 8) : Nat :=
  ((List.finRange 8).filter (fun i => mask.getLsbD i.val && !(clear[i]).isSome)).length

/-- R171: a record is opened and replaces the record that stood. -/
def State.openRoll (s : State) (kind : RollKind) (id : Word16) (program : Option (Fin 4)) (mask : Byte) (phase : Nat) :
    State :=
  s.setRoll (some
    { kind := kind, id := id, program := program, sweepMask := mask,
      start := if s.tb.quality = .invalid then none else some (s.tb.day, s.tb.ms),
      isOpen := true, lastPhase := BitVec.ofNat 8 phase, openedAt := s.now, clear := Vector.replicate 8 none,
      missing := 0, outcome := .none })

/-- R171: a record is closed: open clear and the missing count fixed. A closed record stays as it is. -/
def RollCall.close (r : RollCall) : RollCall :=
  if r.isOpen then { r with isOpen := false, missing := sweepsMissing r.sweepMask r.clear } else r

def State.mapRoll (s : State) (f : RollCall → RollCall) : State := s.setRoll (s.fdc.roll.map f)

/-- The drill has opened its roll-call record: the phases from EVACUATE on (R166, R171). -/
def DrillPhase.recorded : DrillPhase → Bool
  | .evacuate => true
  | .hold => true
  | .allClear => true
  | .armed => false
  | .preAlert => false

/-! ## The end of a drill -/

/-- R173: the arguments of DRILL_ENDED. -/
def State.drillEndedArgs (s : State) (d : Drill) (o : DrillOutcome) : List Byte :=
  let sw : Nat × Nat :=
    match d.phase.recorded, s.fdc.roll with
    | true, some r => (sweepsCleared d.prog.sweepMask r.clear, sweepsMissing d.prog.sweepMask r.clear)
    | _, _ => (0, 0xFF)
  enc16 d.id.toNat ++ enc8 o.code ++ enc8 d.phase.code ++ enc8 sw.1 ++ enc8 sw.2

/-- R164, R168, R169: the drill ends to IDLE: its claims are released, its record is closed with the outcome, and
DRILL_ENDED is raised. The winners are chosen by the event that calls this. -/
def State.endDrill (s : State) (d : Drill) (o : DrillOutcome) : State :=
  let args := s.drillEndedArgs d o
  let s := s.fdcRelease.setDrill none
  let s := if d.phase.recorded then s.mapRoll (fun r => { r.close with outcome := o }) else s
  s.raise .drill 4 args

/-! ## Phases -/

/-- R168: entry to ALL_CLEAR. `byLimit`: the hold limit has ended HOLD (R167). -/
def State.enterAllClear (s : State) (d : Drill) (byLimit : Bool) : State :=
  let d := { d with phase := .allClear, holdLimit := d.holdLimit || byLimit }
  let s := s.mapRoll (fun r => { r.close with lastPhase := 5 })
  if d.prog.clearTime = 0 then
    s.endDrill d (if d.holdLimit then .incomplete else .complete)
  else
    let set := s.zm.resolveEvac
    (s.setDrill (some { d with deadline := some (s.now + d.prog.clearTime * 1000000), evacSet := some set })).fdcClaims
      set 1 d.prog.clearPattern

/-- R167: every input of the drill's sweep mask holds a clear time. -/
def State.maskCleared (s : State) (d : Drill) : Bool :=
  match s.fdc.roll with
  | some r => decide (sweepsMissing d.prog.sweepMask r.clear = 0)
  | none => decide (d.prog.sweepMask = 0)

/-- R167: entry to HOLD, which ends at once when the mask is cleared or the hold limit is 0. In the second case hold limit
reached is set, also where an ALL_CLEAR comes together with the end of EVACUATE and is taken after it, which R164 has end with
the same outcome as before it (DESIGN CHOICE, unsafe, assumption log 54). -/
def State.enterHold (s : State) (d : Drill) : State :=
  let d := { d with phase := .hold, deadline := some (s.now + d.prog.holdLimit * 1000000), evacSet := none }
  let s := (s.fdcRelease.setDrill (some d)).mapRoll (fun r => { r with lastPhase := 4 })
  if s.maskCleared d then s.enterAllClear d false
  else if d.prog.holdLimit = 0 then s.enterAllClear d true
  else s

/-- R166: entry to EVACUATE. -/
def State.enterEvacuate (s : State) (d : Drill) : State :=
  let set := s.zm.resolveEvac
  let d := { d with phase := .evacuate, deadline := some (s.now + d.prog.evacTime * 1000000), evacSet := some set }
  ((s.setDrill (some d)).fdcClaims set 0 d.prog.evacPattern).openRoll .drill d.id (some d.program) d.prog.sweepMask 3

/-- R165: the drill starts and enters its first phase. -/
def State.startDrill (s : State) (d : Drill) : State :=
  let d := { d with runStart := s.now, progress := 0, holdLimit := false }
  let s := s.count .drillRuns
  let s := s.raise .drill 2 (enc16 d.id.toNat ++ enc8 d.program.val ++ s.campusArg)
  if d.prog.preTime = 0 then s.enterEvacuate d
  else
    let set := s.zm.resolveEvac
    (s.setDrill (some
      { d with phase := .preAlert, deadline := some (s.now + d.prog.preTime * 1000000), evacSet := some set })).fdcClaims
      set 1 d.prog.prePattern

/-! ## START (R162) -/

/-- R162: the reasons of a refusal. -/
inductive DrillRefusal where
  | busy
  | fire
  | noTime
  | stale
  | range
deriving DecidableEq, Repr

def DrillRefusal.code : DrillRefusal → Nat
  | .busy => 0 | .fire => 1 | .noTime => 2 | .stale => 3 | .range => 4

/-- What becomes of a START (R162, R74). -/
inductive StartOutcome where
  | ignored
  | refused (why : DrillRefusal)
  | started
  | armed
deriving DecidableEq, Repr

/-- R162: the first condition of the table that holds. -/
def State.startOutcome (s : State) (id day : Word16) (ms : Nat) : StartOutcome :=
  match s.fdc.drill with
  | some d => if d.id = id then .ignored else .refused .busy
  | none =>
    if s.fireMute then .refused .fire
    else if s.tb.quality = .invalid then .refused .noTime
    else
      let diff := campusDiff s.tb.day s.tb.ms day ms
      if diff < -60000 then .refused .stale
      else if 86400000 < diff then .refused .range
      else if diff ≤ 0 then .started
      else .armed

/-- R162: DRILL_REFUSED carries the standing drill id, a free value while no drill is held. -/
def State.refuseDrill (s : State) (id : Word16) (why : DrillRefusal) : State :=
  let s := s.count .drillsRefused
  match s.fdc.drill with
  | some d => s.raise .drill 5 (enc16 id.toNat ++ enc8 why.code ++ enc16 d.id.toNat ++ enc8 d.phase.code)
  | none =>
    let n := s.draw.1
    s.draw.2.raise .drill 5
      (enc16 id.toNat ++ enc8 why.code ++ [Config.unusedByte n 3, Config.unusedByte n 4] ++ enc8 0)

/-- R162: the drill that a START describes, armed. -/
def State.newDrill (s : State) (id : Word16) (program : Fin 4) (day : Word16) (ms : Nat) : Drill :=
  { phase := .armed, id := id, program := program, prog := s.fdc.programs[program], startDay := day, startMs := ms,
    deadline := none, runStart := s.now, progress := 0, holdLimit := false, evacSet := none }

/-- R162: a START is taken by its outcome. -/
def State.takeStart (s : State) (id : Word16) (program : Fin 4) (day : Word16) (ms : Nat) : State :=
  let d := s.newDrill id program day ms
  match s.startOutcome id day ms with
  | .ignored => s
  | .refused why => s.refuseDrill id why
  | .started => rechooseAll allOutputs (s.startDrill d)
  | .armed =>
    (s.setDrill (some d)).raise .drill 1 (enc16 id.toNat ++ enc8 program.val ++ encCampus day ms)

/-- R163: campus time has reached (day, ms); an ARMED drill whose start is reached starts. -/
def State.drillReached (s : State) (day : Word16) (ms : Nat) : State :=
  match s.fdc.drill with
  | some d =>
    if d.phase = .armed ∧ 0 ≤ campusDiff d.startDay d.startMs day ms then
      rechooseAll allOutputs (s.startDrill d)
    else s
  | none => s

/-! ## ABORT, ALL_CLEAR and the HOLD key -/

/-- R164: ABORT. -/
def State.takeAbort (s : State) (id : Word16) : State :=
  match s.fdc.drill with
  | some d => if d.id = id then rechooseAll allOutputs (s.endDrill d .aborted) else s.count .drillNoMatch
  | none => s.count .drillNoMatch

/-- R164: ALL_CLEAR. -/
def State.takeAllClear (s : State) (id : Word16) : State :=
  match s.fdc.drill with
  | some d =>
    if d.id = id then
      match d.phase with
      | .armed => rechooseAll allOutputs (s.endDrill d .aborted)
      | .preAlert => rechooseAll allOutputs (s.endDrill d .aborted)
      | .evacuate => rechooseAll allOutputs (s.enterAllClear d false)
      | .hold => rechooseAll allOutputs (s.enterAllClear d false)
      | .allClear => s
    else s.count .drillNoMatch
  | none => s.count .drillNoMatch

/-! ## Fire -/

/-- The bands of R154. -/
inductive FireReading where
  | inactive
  | active
  | trouble
deriving DecidableEq, Repr

/-- R154: the class of a reading. -/
def NodeCfg.fireClass (c : NodeCfg) (reading : Byte) : FireReading :=
  if c.inactiveLo ≤ reading.toNat ∧ reading.toNat ≤ c.inactiveHi then .inactive
  else if c.activeLo ≤ reading.toNat ∧ reading.toNat ≤ c.activeHi then .active
  else .trouble

def State.setFire (s : State) (f : FireState) (k : Nat) : State :=
  { s with fdc := { s.fdc with fire := f, count := k } }

/-- R157: the entry to ACTIVE from QUIET or PENDING, as one event. -/
def State.enterFire (s : State) (reading : Byte) : State :=
  let s :=
    match s.fdc.drill with
    | some d => (s.setDrill none).raise .drill 4 (s.drillEndedArgs d .superseded)
    | none => s
  let s := s.setFire .active 0
  let s :=
    if s.mu.node.evacOnFire then
      let set := s.zm.resolveEvac
      let t := s.fdcClaims set 0 s.mu.node.firePattern
      { t with fdc := { t.fdc with fireSet := some set } }
    else
      let t := s.fdcRelease
      { t with fdc := { t.fdc with fireSet := none } }
  let s := s.openRoll .fire 0 none s.mu.node.fireSweeps 2
  let s := (s.count .fireActivations).raise .fire 1 (reading :: s.campusArg)
  rechooseAll allOutputs s

/-- R158: the return to QUIET, as one event. -/
def State.leaveFire (s : State) : State :=
  let s := s.setFire .quiet 0
  let s := (s.fdc.fireSet.getD []).foldl (fun s o => s.dropClaim .fdc o) s
  let s := { s with fdc := { s.fdc with fireSet := none } }
  let s := s.mapRoll (fun r =>
    { r.close with lastPhase := 0, outcome := if r.close.missing = 0 then .complete else .incomplete })
  let s :=
    match s.fdc.roll with
    | some r => s.raise .fire 2 (enc8 r.outcome.code ++ enc8 r.missing)
    | none => s
  rechooseAll allOutputs s

/-- R171: the last phase of the fire record follows the fire state between ACTIVE and CLEARING. -/
def State.moveFire (s : State) (f : FireState) (k : Nat) : State :=
  (s.setFire f k).mapRoll (fun r => { r with lastPhase := BitVec.ofNat 8 f.code })

/-- R155: an active reading. -/
def State.fireActive (s : State) (reading : Byte) : State :=
  let nf := s.mu.node.activateDelay
  match s.fdc.fire with
  | .quiet => if nf ≤ 1 then s.enterFire reading else s.setFire .pending 1
  | .pending => if nf ≤ s.fdc.count + 1 then s.enterFire reading else s.setFire .pending (s.fdc.count + 1)
  | .active => s
  | .clearing => s.moveFire .active 0

/-- R155: an inactive reading. -/
def State.fireInactive (s : State) : State :=
  let nc := s.mu.node.clearDelay
  match s.fdc.fire with
  | .quiet => s
  | .pending => s.setFire .quiet 0
  | .active => if nc ≤ 1 then s.leaveFire else s.moveFire .clearing 1
  | .clearing => if nc ≤ s.fdc.count + 1 then s.leaveFire else s.setFire .clearing (s.fdc.count + 1)

/-- R156: a trouble reading. -/
def State.fireTroubled (s : State) (reading : Byte) : State :=
  let run := min 10 (s.fdc.troubleRun + 1)
  let t := { s with fdc := { s.fdc with troubleRun := run } }
  if s.fdc.troubleRun + 1 = 10 then
    let t := { t with fdc := { t.fdc with trouble := true } }
    (t.count .fireTrouble).raise .fire 3 (reading :: enc8 t.fdc.fire.code)
  else t

/-- R156: the first reading that is no trouble ends the run and clears the trouble condition. -/
def State.troubleEnds (s : State) (reading : Byte) : State :=
  let t := { s with fdc := { s.fdc with troubleRun := 0, trouble := false } }
  if s.fdc.trouble then t.raise .fire 4 [reading] else t

/-- R154 to R156: a FIRE check. -/
def State.fireReading (s : State) (reading : Byte) : State :=
  match s.mu.node.fireClass reading with
  | .trouble => s.fireTroubled reading
  | .active => (s.troubleEnds reading).fireActive reading
  | .inactive => (s.troubleEnds reading).fireInactive

end Sys2Proof.Machine
end

