-- ==== Sys2Proof/Machine/Bells.lean ====
section
/-! DEFINITION. The Bell Scheduler of Chapter 4: banks and their order (R60), the plan of day (R64), the high-water mark and
the cursor (R65), firing (R66, R72 to R74), and what it does at second boundaries, midnight, steps and starts (R61, R66 to
R71). -/

namespace Sys2Proof.Machine

/-! ## Banks, plan and cursor -/

def BellScheduler.bank (b : BellScheduler) : Bank → Schedule
  | .a => b.bankA
  | .b => b.bankB

def otherBank : Bank → Bank
  | .a => .b
  | .b => .a

def BellScheduler.activeBank (b : BellScheduler) : Schedule := b.bank b.active

def BellScheduler.standbyBank (b : BellScheduler) : Schedule := b.bank (otherBank b.active)

/-- The indices of the entries of a bank that are not EMPTY and satisfy a condition on their time, in index order. -/
def entriesWhere (b : Schedule) (p : Nat → Bool) : List (Fin 256) :=
  (List.finRange 256).filter (fun i => decide ((b[i]).kind ≠ .empty) && p (b[i]).time)

/-- The time is above a high-water mark; NONE is below every second (R65). -/
def aboveMark (hwm : Option Nat) (t : Nat) : Bool :=
  match hwm with
  | some m => decide (m < t)
  | none => true

/-- R65: the cursor that a bank and a mark give. -/
def cursorOf (b : Schedule) (hwm : Option Nat) : Option (Fin 256) := (entriesWhere b (aboveMark hwm)).head?

/-- R60: the first of a list of entries whose time is below that of the one before it. -/
def outOfOrderFrom (b : Schedule) : Nat → List (Fin 256) → Option (Fin 256)
  | _, [] => none
  | prev, i :: is => if (b[i]).time < prev then some i else outOfOrderFrom b (b[i]).time is

/-- R60: the first non-EMPTY entry, in index order, whose time is below that of the non-EMPTY entry before it. -/
def firstOutOfOrder (b : Schedule) : Option (Fin 256) := outOfOrderFrom b 0 (entriesWhere b (fun _ => true))

/-- R64: the plan of a day. -/
def BellScheduler.planFor (b : BellScheduler) (day : Word16) : Plan :=
  match b.calendar.toList.find? (fun e => e.valid && decide (e.date = day)) with
  | some e => e.plan
  | none => b.week[day.toNat % 7]'(Nat.mod_lt _ (by decide))

/-- R64, R76: a derivation; a plan different from the one held raises PLAN. -/
def State.derivePlan (s : State) (day : Word16) : State :=
  let p := s.bs.planFor day
  let t := { s with bs := { s.bs with plan := some p } }
  if s.bs.plan = some p then t
  else t.raise .bell 1 (enc16 day.toNat ++ enc8 (planCode s.bs.plan) ++ enc8 p.code)

/-- R65: the high-water mark changes and the cursor is derived anew. -/
def State.setMark (s : State) (hwm : Option Nat) : State :=
  { s with bs := { s.bs with hwm := hwm, cursor := cursorOf s.bs.activeBank hwm } }

/-- The plan of day includes the entry (R58, R66). -/
def State.planIncludes (s : State) (e : SchedEntry) : Bool :=
  match s.bs.plan with
  | some (.day k) => e.planMask.getLsbD k.val
  | some .noBells => false
  | none => false

/-! ## Firing -/

/-- R73: a bell is resolved and rung: one BELL claim of class 5 on each output of the set. Each firing ends with its own choice
of winners and its own driven report, also where one time event fires several (R82 could give one choice for the event; DESIGN
CHOICE, unsafe, assumption log 44). -/
def State.ring (s : State) (t : Target) (quietToo : Bool) (pattern duration : Nat) : State :=
  let r := s.zm.resolveBell t quietToo
  let s := s.countResolution t r
  if r.set = [] then s.count .bellEmpty
  else
    let p := s.za.tones.toList.getD pattern .factory
    let c : Claim := ⟨.bell, 5, .tone p, some (s.now + duration * 1000000)⟩
    (rechooseAll r.set (r.set.foldl (fun s o => s.addClaim c o) s)).count .bellsFired

/-- R72, R75: suppression by the fire state, or of a bell with DRILL_SKIP by a drill, and ringing otherwise. -/
def State.fireBell (s : State) (drillSkip : Bool) (t : Target) (quietToo : Bool) (pattern duration : Nat) : State :=
  if s.fireMute then s.count .suppressedFire
  else if s.drillMute && drillSkip then s.count .suppressedDrill
  else s.ring t quietToo pattern duration

/-- R74: a DRILL entry asks for a local drill with id 0, its start being campus time now. -/
def State.fireDrillEntry (s : State) (program : Fin 4) : State :=
  let t := s.takeStart 0 program s.tb.day s.tb.ms
  match s.startOutcome 0 s.tb.day s.tb.ms with
  | .ignored => t
  | .refused _ => t.count .schedDrillRefused
  | .started => t.count .drillsStarted
  | .armed => t

/-- R66: an entry is processed: it fires when the plan of day includes it. -/
def State.processEntry (s : State) (i : Fin 256) : State :=
  let e := s.bs.activeBank[i]
  if s.planIncludes e then
    match e.kind with
    | .empty => s
    | .bell => s.fireBell (e.flags.getLsbD 1) e.target (e.flags.getLsbD 0) e.pattern e.duration
    | .drill => s.fireDrillEntry ⟨e.pattern % 4, Nat.mod_lt _ (by decide)⟩
  else s

/-- Entries are processed in index order. -/
def State.processEntries (s : State) (is : List (Fin 256)) : State := is.foldl State.processEntry s

/-! ## Time events -/

/-- R61: a pending activation at a minute boundary. -/
def State.swapBanks (s : State) (sec : Nat) : State :=
  if s.bs.pendingSwap ∧ sec % 60 = 0 then
    let t := { s with bs := { s.bs with active := otherBank s.bs.active, pendingSwap := false } }
    let t := t.setMark t.bs.hwm
    t.raise .bell 2 (enc8 (bankCode t.bs.active) ++ enc24 sec)
  else s

/-- R66: the second-boundary event for second s. -/
def State.bellSecond (s : State) (sec : Nat) : State :=
  let s := s.swapBanks sec
  if aboveMark s.bs.hwm sec then
    (s.processEntries (entriesWhere s.bs.activeBank (fun t => decide (t = sec)))).setMark (some sec)
  else s

/-- R67: the midnight-roll event. -/
def State.bellMidnight (s : State) (day : Word16) : State := (s.setMark none).derivePlan day

/-- A step event (R6). -/
structure StepEvent where
  oldDay  : Word16
  oldMs   : Nat
  newDay  : Word16
  newMs   : Nat
  forward : Bool
  prior   : Quality
deriving DecidableEq, Repr

def StepEvent.dayChanged (e : StepEvent) : Bool := decide (e.newDay ≠ e.oldDay)

/-- R68: a forward step within the day. -/
def State.bellForward (s : State) (so sn : Nat) : State :=
  if aboveMark s.bs.hwm sn then
    let w := s.mu.node.lateWindow
    let dropped := (entriesWhere s.bs.activeBank (fun t => aboveMark s.bs.hwm t && decide (t + w < sn))).filter
      (fun i => s.planIncludes s.bs.activeBank[i])
    let late := entriesWhere s.bs.activeBank (fun t => aboveMark s.bs.hwm t && decide (sn ≤ t + w) && decide (t ≤ sn))
    let s := s.countN .missed dropped.length
    let s := (s.processEntries late).setMark (some sn)
    if dropped = [] then s
    else s.raise .bell 3 (enc16 dropped.length ++ enc24 so ++ enc24 sn)
  else s

/-- R70: a step that changes the day. -/
def State.bellOtherDay (s : State) (e : StepEvent) (sn : Nat) : State :=
  let s := s.derivePlan e.newDay
  let w := s.mu.node.lateWindow
  let s := if e.forward then
      s.processEntries (entriesWhere s.bs.activeBank (fun t => decide (sn ≤ t + w) && decide (t ≤ sn))) else s
  s.setMark (some sn)

/-- R71: a step whose prior quality is BACKUP rings nothing. -/
def State.bellFromBackup (s : State) (e : StepEvent) (sn : Nat) : State :=
  if e.dayChanged then (s.derivePlan e.newDay).setMark (some sn)
  else if e.forward then s.setMark (some sn)
  else s

/-- R68 to R71: the step event. -/
def State.bellStep (s : State) (e : StepEvent) : State :=
  let so := e.oldMs / 1000
  let sn := e.newMs / 1000
  if e.prior = .backup then s.bellFromBackup e sn
  else if e.dayChanged then s.bellOtherDay e sn
  else if e.forward then s.bellForward so sn
  else s

/-- R71: the start event. -/
def State.bellStart (s : State) (day : Word16) (ms : Nat) : State := (s.derivePlan day).setMark (some (ms / 1000))

end Sys2Proof.Machine
end

