-- ==== Sys2Proof/Machine/Campus.lean ====
section
/-! DEFINITION. The Timebase of Chapter 1: quality (R2), the tick and its events (R3 to R5), steps and slews (R8 to R13), the
echo measurement (R15 to R17) and the backup time counter (R19). -/

namespace Sys2Proof.Machine

/-- R2: quality changes and the notice QUALITY is raised; no change raises nothing. -/
def State.setQuality (s : State) (q : Quality) : State :=
  if s.tb.quality = q then s
  else
    let t := { s with tb := { s.tb with quality := q } }
    t.raise .time 1 (enc8 s.tb.quality.code ++ enc8 q.code ++ enc16 (epochCode s.tb.epoch))

/-- R19, R190: D and the second of day are written into the backup time counter, with the mark and the check value. -/
def State.writeBackup (s : State) : State :=
  { s with rs := { s.rs with day := s.tb.day, second := s.tb.ms / 1000, timeWritten := true } }

/-- R19: the backup time counter counts a second; a store whose contents are lost has no counter. -/
def State.backupSecond (s : State) : State :=
  if s.rs.checkOk then
    if s.rs.second + 1 > 86399 then { s with rs := { s.rs with second := 0, day := s.rs.day + 1 } }
    else { s with rs := { s.rs with second := s.rs.second + 1 } }
  else s

/-! ## Events to the blocks -/

/-- The BS and the FDC take an event of the Timebase in either order (R66). -/
def inOrder (fdcFirst : Bool) (fdc bs : State → State) (s : State) : State :=
  if fdcFirst then bs (fdc s) else fdc (bs s)

/-- R4: a second-boundary event. -/
def State.secondBoundary (s : State) (fdcFirst : Bool) (sec : Nat) : State :=
  inOrder fdcFirst (fun s => s.drillReached s.tb.day (1000 * sec)) (fun s => s.bellSecond sec) s

/-- R4, R122: a step-boundary event; a MINUTE line uses the even indices. The lines are evaluated in order from K0, which the
manual does not state for this event (the model's choice, assumption log 38). -/
def State.stepBoundary (s : State) (k : Nat) : State :=
  allLines.foldl
    (fun s l =>
      match (s.clockCfg l).type with
      | .off => s
      | .minute => if k % 2 = 0 then s.evaluate l else s
      | .half => s.evaluate l) s

/-- An event that evaluates every line of type MINUTE or HALF (R122), in order from K0: R191 states the order for the start
event of a full reset; for the other events it is the model's choice (assumption log 38). -/
def State.evaluateAll (s : State) : State :=
  allLines.foldl (fun s l => if (s.clockCfg l).type = .off then s else s.evaluate l) s

/-- R6: the step event to BS, CLD and FDC. BS and FDC take it before CLD, an order that the manual does not state (DESIGN
CHOICE, unsafe, assumption log 53). -/
def State.stepEvent (s : State) (fdcFirst : Bool) (e : StepEvent) : State :=
  (inOrder fdcFirst (fun s => s.drillReached e.newDay e.newMs) (fun s => s.bellStep e) s).evaluateAll

/-- R7: the start event to BS and CLD; the FDC finds no armed drill in it to start (R163). -/
def State.startEvent (s : State) : State := (s.bellStart s.tb.day s.tb.ms).evaluateAll

/-! ## The tick -/

/-- R3: how far a slew tick or another tick moves T, and C after it. -/
def tickAdvance (slewTick : Bool) (c : Int) : Nat × Int :=
  if slewTick then if 0 < c then (2, c - 1) else if c < 0 then (0, c + 1) else (1, 0) else (1, c)

/-- R1, R3: the tick itself, a millisecond after the last: u passes to 0, or to the µs by which the tick is taken late, the
slew counter advances, and in a quality that runs T moves. -/
def Timebase.tick (tb : Timebase) : Timebase :=
  let n := if tb.slewCount < 49 then tb.slewCount + 1 else 0
  let tb := { tb with phase := tb.phase - 1000, slewCount := n }
  if tb.quality = .invalid then tb
  else
    let a := tickAdvance (decide (n = 0)) tb.slew
    let raw := tb.ms + a.1
    { tb with slew := a.2, ms := raw % Config.dayMs, day := if raw < Config.dayMs then tb.day else tb.day + 1 }

/-- R4, R5, R19: the events of a tick that has moved T from `ms` by `adv`, the new D and T standing. BS and FDC take the second
boundary before CLD takes the step boundary, an order that R5 states for midnight only (DESIGN CHOICE elsewhere, unsafe,
assumption log 53). -/
def State.tickEvents (s : State) (fdcFirst : Bool) (ms adv : Nat) : State :=
  let raw := ms + adv
  let s := if Config.dayMs ≤ raw then s.bellMidnight s.tb.day else s
  let s := if ms / 1000 < raw / 1000 then s.secondBoundary fdcFirst (raw / 1000 % 86400) else s
  let s := if ms / 30000 < raw / 30000 then s.stepBoundary (raw / 30000 % 2880) else s
  if ms / 60000 < raw / 60000 then s.writeBackup else s

/-- R1, R3 to R5: a local millisecond. The rest of the millisecond passes, in INVALID as in every quality, and the tick
falls. -/
def State.localTickEvent (s : State) (fdcFirst : Bool) : State :=
  let u := s.elapse (1000 - s.tb.phase)
  let t := { u with tb := u.tb.tick }
  if s.tb.quality = .invalid then t
  else t.tickEvents fdcFirst s.tb.ms (tickAdvance (decide (t.tb.slewCount = 0)) s.tb.slew).1

/-- A number of local milliseconds end, one after the other. -/
def State.localTicks (s : State) (fdcFirst : Bool) : Nat → State
  | 0 => s
  | n + 1 => (s.localTickEvent fdcFirst).localTicks fdcFirst n

/-- R12: `lag` µs of local time pass between the receipt of a TIME frame and the application of its step. Every local
millisecond that ends within them is a tick, on which the slew counter runs on and campus time moves (R3 to R5). -/
def State.passLag (s : State) (lag : Nat) (fdcFirst : Bool) : State :=
  let t := s.localTicks fdcFirst ((s.tb.phase + lag) / 1000)
  t.elapse (s.now + lag - t.now)

/-! ## TIME frames -/

/-- The fields of an accepted TIME frame (R195). -/
structure TimeFields where
  day   : Word16
  ms    : Nat
  delay : Nat
  epoch : Byte
deriving DecidableEq, Repr

/-- R8, R195: the fields of a TIME payload; none when the frame is discarded. -/
def timeFields (payload : List Byte) : Option TimeFields :=
  let f : TimeFields :=
    ⟨word16At payload 0, (word32At payload 2).toNat, (word32At payload 6).toNat, byteAt payload 10⟩
  if payload.length = 11 ∧ f.ms < Config.dayMs then some f else none

/-- R9: the estimate, its µs of day and its day. -/
def TimeFields.estimate (f : TimeFields) (linkDelay : Nat) : Nat × Word16 :=
  let est := f.ms * 1000 + f.delay + linkDelay
  if Config.dayUs ≤ est then (est - Config.dayUs, f.day + 1) else (est, f.day)

/-- R10: the offset in ms. -/
def Timebase.offsetMs (tb : Timebase) (est : Nat × Word16) : Int :=
  roundHalfAway
    ((est.2 - tb.day).toInt * (Config.dayUs : Int) + ((est.1 : Int) - ((tb.ms * 1000 + tb.us : Nat) : Int))) 1000

/-- R11: the decision for a step. -/
def State.steps (s : State) (f : TimeFields) (eMs : Int) : Bool :=
  decide (s.tb.quality = .invalid) || decide (s.tb.quality = .backup) || decide (s.tb.epoch ≠ some f.epoch) ||
    decide (s.mu.node.stepThreshold ≤ eMs.natAbs)

/-- R12: the campus time of a step: the estimate carried forward by the lag. -/
def carryForward (est : Nat × Word16) (lag : Nat) : Nat × Word16 :=
  if Config.dayUs ≤ est.1 + lag then (est.1 + lag - Config.dayUs, est.2 + 1) else (est.1 + lag, est.2)

/-- R6: the new time is later than the old. -/
def stepForward (oldDay : Word16) (oldMs : Nat) (newDay : Word16) (newMs : Nat) : Bool :=
  let d := (newDay - oldDay).toInt
  decide (0 < d) || (decide (d = 0) && decide (oldMs < newMs))

/-- R12, R6: a step, applied `lag` µs after the receipt. Campus time runs on over the lag, and the old D and T of the step
event are those at which it stands just before the step. -/
def State.takeStep (s : State) (f : TimeFields) (est : Nat × Word16) (eMs : Int) (lag : Nat) (fdcFirst : Bool) : State :=
  let timeout := some (s.now + Config.timeTimeoutUs)
  let s := s.passLag lag fdcFirst
  let old := s.tb
  let new := carryForward est lag
  let s := { s with
    tb := { old with day := new.2, ms := new.1 / 1000, phase := new.1 % 1000, slew := 0, epoch := some f.epoch,
                     timeoutEnd := timeout } }
  let s := ((s.setQuality .synced).count .timeSteps).writeBackup
  let s :=
    if old.quality = .invalid then s.startEvent
    else s.stepEvent fdcFirst
      ⟨old.day, old.ms, new.2, new.1 / 1000, stepForward old.day old.ms new.2 (new.1 / 1000), old.quality⟩
  s.raise .time 2
    (enc32 (BitVec.ofInt 32 (clampInt (-2147483648) 2147483647 eMs)).toNat ++ enc16 f.epoch.toNat ++ enc8 old.quality.code)

/-- R13: a slew. -/
def State.takeSlew (s : State) (eMs : Int) : State :=
  { s with tb := { s.tb with slew := eMs, timeoutEnd := some (s.now + Config.timeTimeoutUs) } }.setQuality .synced

/-- R8 to R14: an accepted TIME frame at its receipt. -/
def State.acceptTime (s : State) (f : TimeFields) (lag : Nat) (fdcFirst : Bool) : State :=
  let est := f.estimate s.tb.linkDelay
  let eMs := s.tb.offsetMs est
  if s.steps f eMs then s.takeStep f est eMs lag fdcFirst else s.takeSlew eMs

/-! ## The echo measurement -/

def State.setEcho (s : State) (e : EchoState) : State := { s with tb := { s.tb with echo := e } }

/-- R15, R195: the ECHO_REQ that carries a tag. -/
def echoReqFrame (tag : Byte) : Frame := ownFrame 0x81 tag (List.replicate 11 0)

/-- R15: a request is made. -/
def State.echoRequest (s : State) : State :=
  if s.tb.echo = .idle then
    let tag := s.tb.echoTag + 1
    let t := { s with tb := { s.tb with echoTag := tag } }
    let u := t.join .upExpress ⟨echoReqFrame tag, none, .echoReq⟩
    if t.hasRoom .upExpress then u.setEcho .queued else u
  else s

/-- R17: a sample is taken into L. -/
def State.takeSample (s : State) (m : Nat) : State :=
  let l := if s.tb.sampleTaken then (s.tb.linkDelay : Int) + ((m : Int) - (s.tb.linkDelay : Int)) / 8 else (m : Int)
  { s with tb := { s.tb with linkDelay := l.toNat, sampleTaken := true } }

/-- R16, R195: an ECHO_RPL at its receipt. -/
def State.takeEchoReply (s : State) (tag : Byte) (payload : List Byte) : State :=
  match s.tb.echo with
  | .awaiting t1 _ =>
    if payload.length = 11 ∧ tag = s.tb.echoTag then
      let r := (s.localCount - t1).toNat
      let h := (word32At payload 0).toNat
      if r < h then (s.count .echoInvalid).setEcho .idle
      else (s.takeSample (min 50000 ((r - h) / 2))).setEcho .idle
    else s.count .echoUnexpected
  | .idle => s.count .echoUnexpected
  | .queued => s.count .echoUnexpected

/-- R21, R15: a line reset or a loss of UP leaves no measurement in flight. -/
def State.echoAbandon (s : State) : State := s.setEcho .idle

end Sys2Proof.Machine
end

