-- ==== Sys2Proof/Machine/Paging.lean ====
section
/-! DEFINITION. The Page Engine of Chapter 6: opening, reopening and eviction (R99 to R102), the jitter FIFO (R104 to R106),
playout (R107 to R109, R111) and the closing of calls (R110 to R114). -/

namespace Sys2Proof.Machine

/-- The eight call records in ascending order. -/
def allRecords : List (Fin 8) := List.finRange 8

/-- The record whose call holds a channel (R98: at most one). -/
def State.callOn (s : State) (channel : Nat) : Option (Fin 8) :=
  allRecords.find? (fun r => match s.call r with
    | some c => decide (c.channel = channel)
    | none => false)

/-- The free record of lowest number (R101). -/
def State.freeRecord (s : State) : Option (Fin 8) := allRecords.find? (fun r => (s.call r).isNone)

/-- The outputs a record's call claims; none for a free record. -/
def State.callZones (s : State) (r : Fin 8) : List Output :=
  match s.call r with
  | some c => c.zones
  | none => []

/-- R113: the claims of a record's call are released and the record becomes free; no winner is chosen yet. -/
def State.releaseCall (s : State) (r : Fin 8) : State :=
  ((s.callZones r).foldl (fun s o => s.dropClaim (.page r) o) s).setCall r none

/-- R113, R82: the calls of these records, closed by one event (the loss of UP, or a tick at which they have all drained),
are closed in one act: all their claims are released, and then each winner is chosen once and the outputs driven are reported
to the scan once. R113 and R82 speak of one call and one source (DESIGN CHOICE, unsafe, assumption log 51). -/
def State.closeCalls (s : State) (rs : List (Fin 8)) : State :=
  rechooseAll (rs.flatMap s.callZones) (rs.foldl State.releaseCall s)

/-- R113: one call is closed. -/
def State.closeCall (s : State) (r : Fin 8) : State := s.closeCalls [r]

/-- R101, R100: the claims of a call on a set, of the class of its priority. -/
def State.pageClaims (s : State) (r : Fin 8) (priority : Nat) (zones : List Output) : State :=
  zones.foldl (fun s o => s.addClaim ⟨.page r, pageClass priority, .page, none⟩ o) s

/-! ## Opening (R99 to R102) -/

/-- The fields of a PAGE_OPEN payload (R195). -/
structure OpenFields where
  channel  : Nat
  priority : Nat
  chime    : Byte
  gain     : Nat
  target   : Target
deriving DecidableEq, Repr

/-- A target specification at an offset (R195). -/
def targetAt (payload : List Byte) (i : Nat) : Target :=
  ⟨byteAt payload i, (word16At payload (i + 1)).toNat, (word16At payload (i + 3)).toNat⟩

/-- R99, R195: the fields of a PAGE_OPEN; none when the frame is PAGE_OPEN_BAD. -/
def openFields (payload : List Byte) : Option OpenFields :=
  let f : OpenFields :=
    ⟨(byteAt payload 0).toNat, (byteAt payload 1).toNat, byteAt payload 2, (byteAt payload 3).toNat, targetAt payload 4⟩
  if payload.length = 18 ∧ f.channel ≤ 15 ∧ f.priority ≤ 3 ∧ (f.chime.toNat ≤ 15 ∨ f.chime = 0xFF) then some f else none

/-- R101: a new call in a free record, in CHIME or in PREFILL. -/
def State.createCall (s : State) (r : Fin 8) (f : OpenFields) (zones : List Output) : State :=
  let chime : Option TonePattern :=
    if f.chime = 0xFF then none else some (s.za.tones.toList.getD f.chime.toNat .factory)
  let c : Call :=
    { channel := f.channel, priority := f.priority, zones := zones, chime := chime, gain := f.gain,
      state := if chime.isSome then .chime else .prefill, expected := none, fifo := [], inPlay := none, underruns := 0,
      silenceEnd := if chime.isSome then none else some (s.now + Config.silenceUs), order := s.pe.openOrder,
      chimeEnd := chime.map (fun p => s.now + passUs p), chimePos := chime.map (fun _ => ⟨0, true, s.now⟩) }
  let s := s.setCall r (some c)
  let s := { s with pe := { s.pe with openOrder := s.pe.openOrder + 1 } }
  rechooseAll zones (s.pageClaims r f.priority zones)

/-- R100: the state of a reopened call. A call that leaves DRAIN straight for PLAY keeps its underrun count, as R100 says of
every reopen, where R106 sets the count to 0 at an entry to PLAY (the model's choice, assumption log 35). -/
def reopenedState (c : Call) : CallState :=
  match c.state with
  | .chime => .chime
  | .prefill => .prefill
  | .play => .play
  | .drain => if 3 ≤ c.fifo.length then .play else .prefill

/-- R100: a reopen of the call in record r. A remade claim that wins takes the output as any new winner does, and so reads the
zone gain anew in the middle of a frame (DESIGN CHOICE, unsafe, assumption log 52). -/
def State.reopenCall (s : State) (r : Fin 8) (c : Call) (f : OpenFields) (zones : List Output) : State :=
  let c' : Call :=
    { c with priority := f.priority, zones := zones, gain := f.gain, state := reopenedState c,
             silenceEnd := if c.state = .chime then none else some (s.now + Config.silenceUs) }
  let left := c.zones.filter (fun o => decide (o ∉ zones))
  let s := left.foldl (fun s o => s.dropClaim (.page r) o) (s.setCall r (some c'))
  rechooseAll (zones ++ left) (s.pageClaims r f.priority zones)

/-- R102: how long ago a call was opened, by the distance of its open order from the counter's present value. -/
def State.openAge (s : State) (c : Call) : Nat := (s.pe.openOrder - 1 - c.order).toNat

/-- R102: the first call is less urgent than the second, or as urgent and opened later. -/
def State.evictBefore (s : State) (a b : Call) : Bool :=
  decide (b.priority < a.priority) || (decide (a.priority = b.priority) && decide (s.openAge a < s.openAge b))

/-- R102: the latest-opened of the least urgent calls. Of two whose open orders are equal after a whole turn of the counter,
the one in the record of lower number is taken (DESIGN CHOICE, unsafe, assumption log 45). -/
def State.evictable (s : State) : Option (Fin 8 × Call) :=
  allRecords.foldl
    (fun best r =>
      match s.call r, best with
      | none, _ => best
      | some c, none => some (r, c)
      | some c, some (_, b) => if s.evictBefore c b then some (r, c) else best) none

/-- R102: an open taken while all eight records hold calls. An eviction is two acts, the close of R113 and the creation of
R101, each with its own choice of winners, where R82 gives one choice for one event (the model's choice, assumption log 36). -/
def State.evictFor (s : State) (f : OpenFields) (zones : List Output) : State :=
  match s.evictable with
  | some (r, c) =>
    if f.priority < c.priority then
      let s := ((s.closeCall r).count .evicted).raise .page 1 (enc8 c.channel ++ enc8 c.priority ++ enc8 f.channel)
      s.createCall r f zones
    else (s.count .openIgnored).raise .page 2 (enc8 f.channel ++ enc8 f.priority)
  | none => s

/-- R99: a matched PAGE_OPEN. -/
def State.takeOpen (s : State) (payload : List Byte) : State :=
  match openFields payload with
  | none => s.count .pageOpenBad
  | some f =>
    let res := s.zm.resolvePage f.target
    let s := s.countResolution f.target res
    if res.set = [] then s.count .pageEmpty
    else
      match s.callOn f.channel with
      | some r =>
        match s.call r with
        | some c => s.reopenCall r c f res.set
        | none => s
      | none =>
        match s.freeRecord with
        | some r => s.createCall r f res.set
        | none => s.evictFor f res.set

/-! ## Closing (R110) -/

/-- R110: a matched PAGE_CLOSE. -/
def State.takeClose (s : State) (payload : List Byte) : State :=
  if payload.length = 18 ∧ (byteAt payload 0).toNat ≤ 15 then
    match s.callOn (byteAt payload 0).toNat with
    | none => s
    | some r =>
      match s.call r with
      | none => s
      | some c =>
        match c.state with
        | .chime => s.closeCall r
        | .drain => s
        | .prefill => if c.fifo = [] then s.closeCall r else s.setCall r (some { c with state := .drain, silenceEnd := none })
        | .play => if c.fifo = [] then s.closeCall r else s.setCall r (some { c with state := .drain, silenceEnd := none })
  else s.count .pageOpenBad

/-! ## Audio frames (R104 to R106) -/

/-- R106: an enqueue; true when the oldest frame was discarded as OVERRUN. -/
def Call.enqueue (c : Call) (f : AudioFrame) : Call × Bool :=
  let full := decide (8 ≤ c.fifo.length)
  let fifo := (if full then c.fifo.drop 1 else c.fifo) ++ [f]
  let c := { c with fifo := fifo }
  (if c.state = .prefill ∧ 3 ≤ fifo.length then { c with state := .play, underruns := 0 } else c, full)

/-- R106: frames enqueued one at a time, with the number of overruns. -/
def Call.enqueueAll (c : Call) : List AudioFrame → Call × Nat
  | [] => (c, 0)
  | f :: fs =>
    let a := c.enqueue f
    let b := a.1.enqueueAll fs
    (b.1, b.2 + (if a.2 then 1 else 0))

/-- R195: the 40 samples of an AUDIO payload. -/
def audioSamples (payload : List Byte) : List Int := (List.range 40).map (fun i => (word16At payload (3 + 2 * i)).toInt)

/-- R104, R195: the payload of an AUDIO frame that is not AUDIO_BAD. -/
def audioGood (payload : List Byte) : Bool :=
  decide (payload.length = 83) && decide ((byteAt payload 0).toNat ≤ 15) && decide (byteAt payload 2 = 40)

/-- R105, R106: the call takes these frames, and its expected sequence follows number n. -/
def State.enqueueFrames (s : State) (r : Fin 8) (c : Call) (n : Byte) (fs : List AudioFrame) : State :=
  let e := { c with expected := some (n + 1) }.enqueueAll fs
  (s.setCall r (some e.1)).countN .overrun e.2

/-- R105: a frame for a call in PREFILL or PLAY, its silence timer already restarted, is taken by its number. -/
def State.takeSequence (s : State) (r : Fin 8) (c : Call) (n : Byte) (f : AudioFrame) : State :=
  match c.expected with
  | none => s.enqueueFrames r c n [f]
  | some x =>
    let delta := (n - x).toNat
    if delta ≤ 3 then
      (s.countN .concealed delta).enqueueFrames r c n (List.replicate delta .silence ++ [f])
    else if delta ≤ 127 then
      (s.count .resync).enqueueFrames r { c with fifo := [], state := .prefill, underruns := 0 } n [f]
    else (s.setCall r (some c)).count .late

/-- R104: an AUDIO frame received at UP. -/
def State.takeAudio (s : State) (payload : List Byte) : State :=
  if audioGood payload then
    match s.callOn (byteAt payload 0).toNat with
    | none => s
    | some r =>
      match s.call r with
      | none => s
      | some c =>
        let c' := { c with silenceEnd := some (s.now + Config.silenceUs) }
        match c.state with
        | .chime => s.count .chimeDiscard
        | .drain => s.count .afterClose
        | .prefill => s.takeSequence r c' (byteAt payload 1) (.samples (audioSamples payload))
        | .play => s.takeSequence r c' (byteAt payload 1) (.samples (audioSamples payload))
  else s.count .audioBad

/-! ## Playout (R107, R108, R111) -/

/-- R107, R108, R111: what a tick of the frame clock makes of a call; true when it found the FIFO of a call in PLAY
empty. A call in DRAIN with an empty FIFO is closed by the tick. -/
def Call.tick (c : Call) (now : Nat) : Call × Bool :=
  match c.state with
  | .chime => ({ c with inPlay := none }, false)
  | .prefill => ({ c with inPlay := none }, false)
  | .play =>
    match c.fifo with
    | f :: fs => ({ c with fifo := fs, inPlay := some ⟨f, now, c.gain⟩, underruns := 0 }, false)
    | [] =>
      let c := { c with inPlay := some ⟨.silence, now, c.gain⟩ }
      (if 20 ≤ c.underruns + 1 then { c with state := .prefill, underruns := 0 }
        else { c with underruns := c.underruns + 1 }, true)
  | .drain =>
    match c.fifo with
    | f :: fs => ({ c with fifo := fs, inPlay := some ⟨f, now, c.gain⟩, underruns := 0 }, false)
    | [] => (c, false)

/-- A call that a tick closes (R111). -/
def Call.drained (c : Call) : Bool := decide (c.state = .drain) && c.fifo.isEmpty

/-- R107, R108: a tick taken by the call of one record. -/
def State.tickCall (s : State) (r : Fin 8) : State :=
  match s.call r with
  | some c =>
    let a := c.tick s.now
    let t := s.setCall r (some a.1)
    if a.2 then t.count .underrun else t
  | none => s

/-- R107, R109: the frame now in play begins on an output whose winner is a page claim; the zone gain is read. -/
def State.handFrame (s : State) (o : Output) : State :=
  match (s.out o).play, (s.out o).winner with
  | .page _ level _, some (.page r) =>
    match s.pagePlay o r with
    | .page gz _ clip => s.setOut o { s.out o with play := .page gz level clip }
    | _ => s
  | _, _ => s

/-- R109: the frames in play have ended, and no frame has been counted CLIPPED here. -/
def State.clearClipped (s : State) (o : Output) : State :=
  s.setOut o { s.out o with clipped := Vector.replicate 8 false }

/-- R107: a tick of the frame clock. The frames played are settled and end, every call takes its next frame, the frames are
handed to the zones, and the calls that have drained are closed. -/
def State.frameTick (s : State) : State :=
  let done := allRecords.filter (fun r => match s.call r with
    | some c => c.drained
    | none => false)
  let s := allOutputs.foldl State.settleClip s
  let s := allOutputs.foldl State.clearClipped s
  let s := allRecords.foldl State.tickCall s
  let s := allOutputs.foldl State.handFrame s
  s.closeCalls done

/-- R114: the UP port leaves ACTIVE: every open call is closed at once, counted CALLS_CUT once for each. -/
def State.cutCalls (s : State) : State :=
  let opened := allRecords.filter (fun r => (s.call r).isSome)
  (s.closeCalls opened).countN .callsCut opened.length

end Sys2Proof.Machine
end

