-- ==== Sys2Proof/Machine/Lines.lean ====
section
/-! DEFINITION. The Line Interface and the Forwarding Engine of Chapter 2: reception (R25, R26), classes and directions
(R27), selectors (R28, R29, R33), the hop position (R30), forwarding (R32 to R36), and transmission (R38, R39). The loss of
a link stands in Resets.lean, since it can take the line reset. -/

namespace Sys2Proof.Machine

/-! ## Counters of a port -/

def abortedCounter : PortId → Counter
  | .up => .upAborted
  | .down => .downAborted

def lengthCounter : PortId → Counter
  | .up => .upLengthError
  | .down => .downLengthError

def crcCounter : PortId → Counter
  | .up => .upCrcError
  | .down => .downCrcError

def flushedCounter : PortId → Counter
  | .up => .upFlushed
  | .down => .downFlushed

def lossCounter : PortId → Counter
  | .up => .upLoss
  | .down => .downLoss

/-! ## Reception -/

/-- R22, R25: a frame is received in ACTIVE, and only while a frame is under reception: an end delimiter that no start
delimiter goes before is stray and is ignored. -/
def State.hears (s : State) (p : PortId) : Bool :=
  decide ((s.port p).link = .active) && (s.port p).rx.isSome

/-- R25: the reception at a port ends: the receiver waits for the next start delimiter. -/
def State.endReception (s : State) (p : PortId) : State := s.setPort p { s.port p with rx := none }

/-- R25: a start delimiter begins a frame under reception. -/
def State.beginReception (s : State) (p : PortId) : State :=
  if (s.port p).link = .active then s.setPort p { s.port p with rx := some [] } else s

/-- R25: a frame under reception is discarded and counted; between frames nothing happens. -/
def State.discardReception (s : State) (p : PortId) (c : Counter) : State :=
  if s.hears p then (s.endReception p).count c else s

/-- R26: a frame that fails a check is dropped and counted by the check it fails first. -/
def State.dropFailed (s : State) (p : PortId) (bytes : List Byte) : State :=
  if s.hears p then
    match checkFailure bytes with
    | some .length => (s.endReception p).count (lengthCounter p)
    | some .crc => (s.endReception p).count (crcCounter p)
    | none => s
  else s

/-! ## Selectors -/

end Sys2Proof.Machine

namespace Sys2Proof

/-- R194: the selector mode. -/
def Hdr.mode (h : Hdr) : BitVec 2 := h.sel.extractLsb' 14 2

/-- R194: the selector value. -/
def Hdr.value (h : Hdr) : BitVec 10 := h.sel.extractLsb' 0 10

/-- R194: the selector mask. -/
def Hdr.maskBits (h : Hdr) : BitVec 10 := h.mask.extractLsb' 0 10

/-- A received frame as it was received. -/
def Hdr.frame (h : Hdr) (kind : Byte) (payload : List Byte) : Machine.Frame :=
  ⟨kind, h.hops, h.sel, h.mask, h.tag, payload⟩

end Sys2Proof

namespace Sys2Proof.Machine

/-- R28, R29: POS with a value. -/
def posMatches (hop : Option Byte) (v : BitVec 10) : Bool :=
  match hop with
  | some p => decide (v ≠ 0) && decide (p.toNat = v.toNat)
  | none => false

/-- R28, R29: ADDR with a value and a mask, for a node of the address given. -/
def addrMatches (addr : Word16) (v m : BitVec 10) : Bool :=
  if addr = 0 then decide (m = 0x3FF)
  else decide ((addr.extractLsb' 0 10 ^^^ v) &&& ~~~m = 0)

/-- R28, R29: the selector of a frame matches this node. -/
def State.selected (s : State) (h : Hdr) : Bool :=
  if h.mode = 0 then decide (s.mu.addr ≠ 0)
  else if h.mode = 1 then posMatches s.line.hop h.value
  else if h.mode = 2 then addrMatches s.mu.addr h.value h.maskBits
  else false

/-- R33: a MGMT_REQ that stops at this node. -/
def State.consumes (s : State) (h : Hdr) : Bool :=
  s.selected h && (decide (h.mode = 1) || (decide (h.mode = 2) && decide (h.maskBits = 0)))

/-! ## The hop position -/

/-- Hops plus 1, clamped at 255 (R30, R31). -/
def nextHop (hops : Byte) : Byte := if hops = 0xFF then 0xFF else hops + 1

/-- R30: the node learns its position; a change raises POSITION. -/
def State.learnHop (s : State) (hops : Byte) : State :=
  if s.line.hop = some (nextHop hops) then s
  else
    let t := { s with line := { s.line with hop := some (nextHop hops) } }
    t.raise .line 4 (enc8 (hopCode s.line.hop) ++ [nextHop hops])

/-- R30: an intact frame of any kind but ECHO_RPL teaches the position when it is received at UP. -/
def State.learnAt (s : State) (h : Hdr) : State := if h.port = .up then s.learnHop h.hops else s

/-! ## Forwarding -/

/-- R30, R27: an intact frame of a known class other than ECHO_RPL, its reception ended: the position is learned whatever the
direction, and the frame is acted on at its proper port. -/
def State.sorted (proper : PortId) (h : Hdr) (act : State → State) (s : State) : State :=
  if h.port = proper then act (s.learnAt h) else (s.learnAt h).count .wrongDirection

/-- R25, R27: a frame of a known class other than ECHO_RPL is received. -/
def State.receive (proper : PortId) (h : Hdr) (act : State → State) (s : State) : State :=
  if s.hears h.port then (s.endReception h.port).sorted proper h act else s

/-- R32: a copy of a downstream frame for DOWN, with the stamp of its receipt. -/
def State.copyDown (s : State) (q : QueueId) (f : Frame) (stamp : Word32) (origin : Origin) : State :=
  s.joinDown q ⟨f, some stamp, origin⟩

/-- R32: a downstream frame whose owner acts when the selector matches, and its copy on DOWN normal. -/
def State.selective (kind : Byte) (h : Hdr) (payload : List Byte) (owner : State → State) (s : State) : State :=
  s.receive .up h (fun t =>
    (if t.selected h then owner t else t).copyDown .downNormal (h.frame kind payload) t.localCount .relayDown)

/-- R32, R33: what becomes of a MGMT_REQ: its owner acts where it matches, and it is not copied where it is consumed. -/
def State.matchRequest (h : Hdr) (payload : List Byte) (owner : State → State) (t : State) : State :=
  if t.consumes h then owner t
  else (if t.selected h then owner t else t).copyDown .downNormal (h.frame 0x08 payload) t.localCount .relayDown

/-- R32, R33: a MGMT_REQ is received. -/
def State.request (h : Hdr) (payload : List Byte) (owner : State → State) (s : State) : State :=
  s.receive .up h (State.matchRequest h payload owner)

/-- R32, R8, R18: a TIME frame: the Timebase takes it when it is accepted, and the copy goes on DOWN express with the L
held at the receipt; a discarded frame goes on without this node's additions. The copy of a frame that steps joins the queue
once its step has been applied, so that its residence is never below the lag (DESIGN CHOICE, unsafe, assumption log 9). -/
def State.timeFrame (h : Hdr) (payload : List Byte) (lag : Nat) (fdcFirst : Bool) (s : State) : State :=
  s.receive .up h (fun t =>
    match timeFields payload with
    | some f =>
      (t.acceptTime f lag fdcFirst).copyDown .downExpress (h.frame 0x01 payload) t.localCount (.relayTime t.tb.linkDelay)
    | none => (t.count .timeDiscard).copyDown .downExpress (h.frame 0x01 payload) t.localCount .relayDown)

/-- R32: an AUDIO frame, examined whatever its selector. -/
def State.audioFrame (h : Hdr) (payload : List Byte) (s : State) : State :=
  s.receive .up h (fun t =>
    (t.takeAudio payload).copyDown .downExpress (h.frame 0x02 payload) t.localCount .relayDown)

/-- R34: an upstream frame, queued on UP normal. -/
def State.upstream (kind : Byte) (h : Hdr) (payload : List Byte) (s : State) : State :=
  s.receive .down h (fun t => t.relayUp (h.frame kind payload))

/-- R36, R195: the ECHO_RPL that answers a request, made with a payload of 11 bytes. -/
def echoReplyFrame (tag : Byte) : Frame := ownFrame 0x82 tag (List.replicate 11 0)

/-- R34, R36: an ECHO_REQ, answered on DOWN express. -/
def State.echoRequested (h : Hdr) (s : State) : State :=
  s.receive .down h (fun t => t.joinDown .downExpress ⟨echoReplyFrame h.tag, some t.localCount, .echoRpl⟩)

/-- R16, R32: an ECHO_RPL, taken by the Timebase and not forwarded. -/
def State.echoReplied (h : Hdr) (payload : List Byte) (s : State) : State :=
  if s.hears h.port then
    let t := s.endReception h.port
    if h.port = .up then t.takeEchoReply h.tag payload else t.count .wrongDirection
  else s

/-- R35: a frame of unknown kind is counted and goes on in its own direction. -/
def State.unknownFrame (h : Hdr) (kind : Byte) (payload : List Byte) (s : State) : State :=
  if s.hears h.port then
    let t := ((s.endReception h.port).learnAt h).count .unknownKind
    match h.port with
    | .up => t.copyDown .downNormal (h.frame kind payload) t.localCount .relayDown
    | .down => t.relayUp (h.frame kind payload)
  else s

/-! ## Link states -/

/-- R22: ABSENT to DEBOUNCE. -/
def State.signalPresent (s : State) (p : PortId) : State :=
  if (s.port p).link = .absent then
    s.setPort p { s.port p with link := .debounce, debounceEnd := some (s.now + Config.debounceUs) }
  else s

/-- R22: DEBOUNCE to TRAINING. -/
def State.debounced (s : State) (p : PortId) : State :=
  if (s.port p).link = .debounce ∧ s.expired (s.port p).debounceEnd then
    s.setPort p { s.port p with link := .training, debounceEnd := none, trainingEnd := some (s.now + Config.trainingUs) }
  else s

/-- R22: TRAINING starts again. -/
def State.retrain (s : State) (p : PortId) : State :=
  if (s.port p).link = .training then
    s.setPort p { s.port p with trainingEnd := some (s.now + Config.trainingUs) }
  else s

/-- R22: DEBOUNCE or TRAINING to ABSENT. -/
def State.attachLost (s : State) (p : PortId) : State :=
  if (s.port p).link = .debounce ∨ (s.port p).link = .training then
    s.setPort p { s.port p with link := .absent, debounceEnd := none, trainingEnd := none }
  else s

/-- R23, R15, R40: what follows a port's becoming ACTIVE. -/
def State.attached (s : State) : PortId → State
  | .up =>
    let t := { s with tb := { s.tb with echoPeriod := some (s.now + Config.echoPeriodUs) } }
    t.echoRequest.raise .line 1 (enc16 (s.counter .upLoss))
  | .down => s.raise .line 2 (enc16 (s.counter .downLoss))

/-- R22, R23: TRAINING to ACTIVE. -/
def State.trained (s : State) (p : PortId) : State :=
  if (s.port p).link = .training ∧ s.expired (s.port p).trainingEnd then
    (s.setPort p { s.port p with link := .active, trainingEnd := none }).attached p
  else s

/-! ## Transmission -/

/-- R194: the header and payload bytes of a frame. -/
def Frame.bytes (f : Frame) : List Byte :=
  [f.kind, f.hops] ++ enc16 f.sel.toNat ++ enc16 f.mask.toNat ++ [f.tag] ++ enc8 f.payload.length ++ f.payload

/-- R18: the accumulated delay sent on, saturating at 2^32 − 1. -/
def accumulated (a linkDelay residence : Nat) : Nat := min 4294967295 (a + linkDelay + residence)

/-- R39: µs from a receipt stamp to now, modulo 2^32. -/
def State.since (s : State) (stamp : Option Word32) : Nat := (s.localCount - stamp.getD s.localCount).toNat

/-- R18, R195: the TIME payload with its A replaced. -/
def withDelay (payload : List Byte) (a : Nat) : List Byte := payload.take 6 ++ enc32 a ++ payload.drop 10

/-- R31, R39: the fields written at the start of a transmission. -/
def State.written (s : State) (i : QItem) : Frame :=
  match i.origin with
  | .relayDown => { i.frame with hops := nextHop i.frame.hops }
  | .relayTime l =>
    { i.frame with
      hops := nextHop i.frame.hops,
      payload := withDelay i.frame.payload (accumulated (word32At i.frame.payload 6).toNat l (s.since i.stamp)) }
  | .relayUp => i.frame
  | .own => { i.frame with hops := BitVec.ofNat 8 (hopCode s.line.hop) }
  | .resetReply => { i.frame with hops := BitVec.ofNat 8 (hopCode s.line.hop) }
  | .echoReq => { i.frame with hops := 0 }
  | .echoRpl => { i.frame with hops := 0, payload := enc32 (s.since i.stamp) ++ i.frame.payload.drop 4 }

/-- 2.2: the time on the line of a frame from its start delimiter to the end of its end delimiter, in µs. -/
def Frame.lineUs (f : Frame) : Nat := (10 + f.payload.length + 2) * Config.byteUs

/-- R38: one byte time of idle pattern has followed the last frame. -/
def State.idleSent (s : State) (p : PortId) : Bool :=
  match (s.port p).lastTxEnd with
  | some e => decide (e + Config.byteUs ≤ s.now)
  | none => true

/-- R38: the frame the arbiter starts next, with the queues it leaves: express before normal. -/
def Port.nextFrame (v : Port) : Option (QItem × List QItem × List QItem) :=
  match v.express, v.normal with
  | i :: e, n => some (i, e, n)
  | [], i :: n => some (i, [], n)
  | [], [] => none

/-- R15: the Timebase's part in the start of an ECHO_REQ: t1 and the reply timer. -/
def State.echoSent (s : State) : State := s.setEcho (.awaiting s.localCount (s.now + Config.echoReplyUs))

/-- R38, R39: the arbiter starts a frame when the port is ACTIVE, its transmitter idle and a queue holds a frame. -/
def State.startTransmission (s : State) (p : PortId) : State :=
  match (s.port p).link, (s.port p).tx, (s.port p).nextFrame with
  | .active, none, some (i, e, n) =>
    if s.idleSent p then
      let f := s.written i
      let t := s.setPort p { s.port p with
        express := e, normal := n, tx := some ⟨f, crc f.bytes, s.now, s.now + f.lineUs, i.origin⟩ }
      if i.origin = .echoReq then t.echoSent else t
    else s
  | _, _, _ => s

end Sys2Proof.Machine
end

