-- ==== Sys2Proof/Machine/Operands.lean ====
section
/-! DEFINITION. The operands of requests and the records of the table spaces (R178, R196, R197): for each space a decoder,
which answers none for a record the owner's checks refuse, and an encoder for what is read back. -/

namespace Sys2Proof.Machine

/-- A byte that stands for a Bool in bit 0, every other bit being outside its values (R197). -/
def flagByte (b : Byte) : Option Bool := if b = 0 then some false else if b = 1 then some true else none

/-! ## SCHED_A and SCHED_B (R58) -/

def EntryKind.code : EntryKind → Nat
  | .empty => 0 | .bell => 1 | .drill => 2

/-- The entry as carried, before its checks. -/
def schedFields (b : List Byte) (kind : EntryKind) : SchedEntry :=
  { time := (word32At b 0).toNat, planMask := byteAt b 4, kind := kind, flags := byteAt b 6,
    pattern := (byteAt b 7).toNat, target := targetAt b 8, duration := (byteAt b 13).toNat }

/-- R58: a BELL entry is valid. -/
def SchedEntry.bellGood (e : SchedEntry) : Bool :=
  decide (e.time ≤ 86399) && decide (e.flags.toNat ≤ 3) && decide (e.pattern ≤ 15) && decide (1 ≤ e.duration) &&
    decide (e.duration ≤ 120) && !e.target.bad

/-- R58: a DRILL entry is valid. -/
def SchedEntry.drillGood (e : SchedEntry) : Bool :=
  decide (e.time ≤ 86399) && decide (e.flags.toNat ≤ 3) && decide (e.pattern ≤ 3)

def decSched (b : List Byte) : Option SchedEntry :=
  if byteAt b 5 = 0 then some .emptyEntry
  else if byteAt b 5 = 1 then
    if (schedFields b .bell).bellGood then some (schedFields b .bell) else none
  else if byteAt b 5 = 2 then
    if (schedFields b .drill).drillGood then some (schedFields b .drill) else none
  else none

def encTarget (t : Target) : List Byte := [t.mode] ++ enc16 t.lo ++ enc16 t.hi

def encSched (e : SchedEntry) : List Byte :=
  enc32 e.time ++ [e.planMask] ++ enc8 e.kind.code ++ [e.flags] ++ enc8 e.pattern ++ encTarget e.target ++ enc8 e.duration

/-! ## CALENDAR and WEEKPLAN (R62, R63) -/

def decPlan (b : Byte) : Option Plan :=
  if h : b.toNat < 8 then some (.day ⟨b.toNat, h⟩) else if b = 8 then some .noBells else none

def decCalendar (b : List Byte) : Option CalendarEntry :=
  match flagByte (byteAt b 0), decPlan (byteAt b 3) with
  | some v, some p => some ⟨v, word16At b 1, p⟩
  | _, _ => none

def encCalendar (e : CalendarEntry) : List Byte := enc8 (flagBit e.valid 0) ++ enc16 e.date.toNat ++ enc8 e.plan.code

def decWeek (b : List Byte) : Option Plan := decPlan (byteAt b 0)

def encWeek (p : Plan) : List Byte := enc8 p.code

/-! ## WINDOWS (R43) -/

def OutputKind.code : OutputKind → Nat
  | .bell => 0 | .speaker => 1

/-- R43: the number of local outputs of a kind. -/
def OutputKind.outputs : OutputKind → Nat
  | .bell => 16 | .speaker => 8

def decOutputKind (b : Byte) : Option OutputKind := if b = 0 then some .bell else if b = 1 then some .speaker else none

def decWindow (b : List Byte) : Option Window :=
  match flagByte (byteAt b 0), decOutputKind (byteAt b 1) with
  | some e, some k =>
    let w : Window := ⟨e, k, (word16At b 2).toNat, (word16At b 4).toNat, (byteAt b 6).toNat⟩
    if w.stop ≤ 4095 ∧ w.start ≤ w.stop ∧ w.base < k.outputs then some w else none
  | _, _ => none

def encWindow (w : Window) : List Byte :=
  enc8 (flagBit w.enabled 0) ++ enc8 w.kind.code ++ enc16 w.start ++ enc16 w.stop ++ enc8 w.base

/-! ## ZONEATTR (R45) -/

/-- R45: the fields of a record lie within their values; n is its number. -/
def ZoneAttr.good (a : ZoneAttr) (n : Nat) : Bool :=
  decide (a.wing ≤ 15) && decide (a.floor ≤ 7) && decide (a.roomUse ≤ 15) && decide (a.grade ≤ 15) &&
    (decide (16 ≤ n) || (!a.bellOnSpeaker && decide (a.gain = 0) && decide (a.level = 0)))

def decAttr (n : Nat) (b : List Byte) : Option ZoneAttr :=
  let f := byteAt b 4
  let a : ZoneAttr :=
    { wing := (byteAt b 0).toNat, floor := (byteAt b 1).toNat, roomUse := (byteAt b 2).toNat, grade := (byteAt b 3).toNat,
      quiet := f.getLsbD 0, evac := f.getLsbD 1, bellOnSpeaker := f.getLsbD 2, gain := (byteAt b 5).toNat,
      level := (byteAt b 6).toNat }
  if f.toNat ≤ 7 ∧ a.good n then some a else none

def encAttr (a : ZoneAttr) : List Byte :=
  enc8 a.wing ++ enc8 a.floor ++ enc8 a.roomUse ++ enc8 a.grade ++
    enc8 (flagBit a.quiet 0 + flagBit a.evac 1 + flagBit a.bellOnSpeaker 2) ++ enc8 a.gain ++ enc8 a.level

/-! ## TONES (R93) -/

/-- The step at index i of a pattern record. -/
def toneStepAt (b : List Byte) (i : Nat) : ToneStep :=
  ⟨(word16At b (2 + 5 * i)).toNat, (word16At b (4 + 5 * i)).toNat, (byteAt b (6 + 5 * i)).toNat⟩

/-- R93: the values of a step. -/
def ToneStep.good (t : ToneStep) : Bool :=
  decide (5 ≤ t.on) && decide (t.on ≤ 500) && decide (t.off ≤ 500) && decide (t.pitch ≤ 15)

def decTone (b : List Byte) : Option TonePattern :=
  let n := (byteAt b 1).toNat
  let steps := (List.range n).map (toneStepAt b)
  match flagByte (byteAt b 0) with
  | some r => if 1 ≤ n ∧ n ≤ 8 ∧ steps.all ToneStep.good then some ⟨r, steps⟩ else none
  | none => none

def encTone (p : TonePattern) : List Byte :=
  padTo 42 (enc8 (flagBit p.repeats 0) ++ enc8 p.steps.length ++
    p.steps.flatMap (fun t => enc16 t.on ++ enc16 t.off ++ enc8 t.pitch))

/-! ## CLOCKCFG (R118) -/

def decClockType (b : Byte) : Option ClockType :=
  if b = 0 then some .off else if b = 1 then some .minute else if b = 2 then some .half else none

def decPolarityMode (b : Byte) : Option PolarityMode :=
  if b = 0 then some .polarized else if b = 1 then some .same else none

def PolarityMode.code : PolarityMode → Nat
  | .polarized => 0 | .same => 1

/-- R118: a width or gap. -/
def clockTimeGood (n : Nat) : Bool := decide (100 ≤ n) && decide (n ≤ 2000) && decide (n % 50 = 0)

def decClock (b : List Byte) : Option ClockCfg :=
  match decClockType (byteAt b 0), decPolarityMode (byteAt b 1) with
  | some t, some m =>
    let c : ClockCfg :=
      ⟨t, m, (word16At b 2).toNat, (word16At b 4).toNat, (byteAt b 6).toNat, (byteAt b 7).toNat, (byteAt b 8).toNat⟩
    if clockTimeGood c.width ∧ clockTimeGood c.gap ∧ c.window ≤ 120 ∧ c.openLim < c.shortLim then some c else none
  | _, _ => none

def encClock (c : ClockCfg) : List Byte :=
  enc8 c.type.code ++ enc8 c.polarity.code ++ enc16 c.width ++ enc16 c.gap ++ enc8 c.window ++ enc8 c.openLim ++
    enc8 c.shortLim

/-! ## SUPCFG (R140) -/

/-- R140: the checks of the record of circuit n. -/
def SupCfg.good (c : SupCfg) (n : Nat) : Bool :=
  decide (10 ≤ c.dwell) && decide (c.dwell ≤ 250) && decide (c.dwell % 10 = 0) && decide (1 ≤ c.n) && decide (c.h ≤ 63) &&
    decide (c.lo + c.h + c.h ≤ c.hi) && !(c.autoIsolate && decide (16 ≤ n) && decide (n ≤ 23))

def decSup (n : Nat) (b : List Byte) : Option SupCfg :=
  let f := byteAt b 6
  match flagByte (byteAt b 0) with
  | some e =>
    let c : SupCfg :=
      { enabled := e, dwell := (byteAt b 1).toNat, lo := (byteAt b 2).toNat, hi := (byteAt b 3).toNat,
        n := (byteAt b 4).toNat, h := (byteAt b 5).toNat, autoRecover := f.getLsbD 0, autoIsolate := f.getLsbD 1 }
    if f.toNat ≤ 3 ∧ c.good n then some c else none
  | none => none

def encSup (c : SupCfg) : List Byte :=
  enc8 (flagBit c.enabled 0) ++ enc8 c.dwell ++ enc8 c.lo ++ enc8 c.hi ++ enc8 c.n ++ enc8 c.h ++
    enc8 (flagBit c.autoRecover 0 + flagBit c.autoIsolate 1)

/-! ## DRILLPROG (R159) -/

def decDrill (b : List Byte) : Option DrillProg :=
  let p : DrillProg :=
    { prePattern := (byteAt b 0).toNat, preTime := (word16At b 1).toNat, evacPattern := (byteAt b 3).toNat,
      evacTime := (word16At b 4).toNat, holdLimit := (word16At b 6).toNat, sweepMask := byteAt b 8,
      clearPattern := (byteAt b 9).toNat, clearTime := (byteAt b 10).toNat }
  if p.prePattern ≤ 15 ∧ p.evacPattern ≤ 15 ∧ p.clearPattern ≤ 15 ∧ p.preTime ≤ 300 ∧ 10 ≤ p.evacTime ∧
      p.evacTime ≤ 1800 ∧ p.holdLimit ≤ 3600 ∧ p.clearTime ≤ 120 then some p
  else none

def encDrill (p : DrillProg) : List Byte :=
  enc8 p.prePattern ++ enc16 p.preTime ++ enc8 p.evacPattern ++ enc16 p.evacTime ++ enc16 p.holdLimit ++ [p.sweepMask] ++
    enc8 p.clearPattern ++ enc8 p.clearTime

/-! ## NODECFG (R181, R154) -/

def Steer.code : Steer → Nat
  | .none => 0 | .indA => 1 | .indB => 2

def decSteer (n : Nat) : Option Steer :=
  if n = 0 then some .none else if n = 1 then some .indA else if n = 2 then some .indB else none

/-- The two bits of class i in the steering field, from the highest bits. -/
def steerBits (w : Word16) (i : Nat) : Nat := w.toNat / 4 ^ (7 - i) % 4

def decSteering (w : Word16) : Option (Vector Steer 6) :=
  match decSteer (steerBits w 0), decSteer (steerBits w 1), decSteer (steerBits w 2), decSteer (steerBits w 3),
      decSteer (steerBits w 4), decSteer (steerBits w 5) with
  | some a, some b, some c, some d, some e, some f => some #v[a, b, c, d, e, f]
  | _, _, _, _, _, _ => none

def encSteering (v : Vector Steer 6) : List Byte :=
  enc16 (v.toList.foldl (fun n t => n * 4 + t.code) 0 * 16)

/-- R154: the conditions on the bands. -/
def NodeCfg.bandsGood (c : NodeCfg) : Bool :=
  decide (c.inactiveLo ≤ c.inactiveHi) && decide (c.activeLo ≤ c.activeHi) &&
    (decide (c.inactiveHi < c.activeLo) || decide (c.activeHi < c.inactiveLo))

/-- R181: every field lies within its values. -/
def NodeCfg.good (c : NodeCfg) : Bool :=
  decide (c.linkDelay ≤ 50000) && decide (100 ≤ c.stepThreshold) && decide (c.stepThreshold ≤ 5000) &&
    decide (c.lateWindow ≤ 120) && decide (1 ≤ c.activateDelay) && decide (c.activateDelay ≤ 50) &&
    decide (1 ≤ c.clearDelay) && decide (c.firePattern ≤ 15) && c.bandsGood

def decNode (b : List Byte) : Option NodeCfg :=
  let f := byteAt b 5
  match decSteering (word16At b 15) with
  | some st =>
    let c : NodeCfg :=
      { linkDelay := (word16At b 0).toNat, stepThreshold := (word16At b 2).toNat, lateWindow := (byteAt b 4).toNat,
        allowForceOn := f.getLsbD 0, allowForceOff := f.getLsbD 1, evacOnFire := f.getLsbD 2,
        inactiveLo := (byteAt b 6).toNat, inactiveHi := (byteAt b 7).toNat, activeLo := (byteAt b 8).toNat,
        activeHi := (byteAt b 9).toNat, activateDelay := (byteAt b 10).toNat, clearDelay := (byteAt b 11).toNat,
        firePattern := (byteAt b 12).toNat, fireSweeps := byteAt b 13, enables := byteAt b 14, steering := st }
    if f.toNat ≤ 7 ∧ c.good then some c else none
  | none => none

def encNode (c : NodeCfg) : List Byte :=
  enc16 c.linkDelay ++ enc16 c.stepThreshold ++ enc8 c.lateWindow ++
    enc8 (flagBit c.allowForceOn 0 + flagBit c.allowForceOff 1 + flagBit c.evacOnFire 2) ++
    enc8 c.inactiveLo ++ enc8 c.inactiveHi ++ enc8 c.activeLo ++ enc8 c.activeHi ++ enc8 c.activateDelay ++
    enc8 c.clearDelay ++ enc8 c.firePattern ++ [c.fireSweeps] ++ [c.enables] ++ encSteering c.steering

/-! ## The read-only spaces -/

def RollKind.code : RollKind → Nat
  | .drill => 1 | .fire => 2

/-- The mask of the clear times that are present. -/
def clearMask (v : Vector (Option Nat) 8) : Nat :=
  (List.finRange 8).foldl (fun n i => n + flagBit (v[i]).isSome i.val) 0

/-- The program field of DRILLRES (assumption log 17 for none). -/
def programCode : Option (Fin 4) → Nat
  | some p => p.val
  | none => if Config.programReadsZero then 0 else 0xFF

/-- DRILLRES (R171, R197). The fields that a record does not use are 0. -/
def encRoll : Option RollCall → List Byte
  | none => List.replicate 3 0 ++ enc8 (programCode none) ++ List.replicate 28 0
  | some r =>
    enc8 r.kind.code ++ enc16 r.id.toNat ++ enc8 (programCode r.program) ++ [r.sweepMask] ++
      (match r.start with
        | some (d, t) => enc16 d.toNat ++ enc32 t
        | none => enc16 0 ++ enc32 0xFFFFFFFF) ++
      enc8 (flagBit r.isOpen 0) ++ [r.lastPhase] ++ enc8 (clearMask r.clear) ++
      r.clear.toList.flatMap (fun t => enc16 (t.getD 0)) ++ enc8 r.missing ++ enc8 r.outcome.code

/-- The polarity codes; none is KEEP (R197). -/
def polarityCode : Option Polarity → Nat
  | some .a => 0
  | some .b => 1
  | none => 2

/-- CLOCKSTATE's pending fields (R136, R197). -/
def encPending : Option PendingPos → List Byte
  | none => enc16 0 ++ enc8 0
  | some .unknown => enc16 0xFFFF ++ [Config.pendingUnknownPolarity]
  | some (.position i p) => enc16 i ++ enc8 (polarityCode p)

/-- CLOCKSTATE (R136, R197). A correction count above 65,535 reads as a free value (the model's choice, assumption log 37). -/
def State.encClockState (s : State) (k : LineNo) : List Byte :=
  let t := (s.clockCfg k).type
  let ln := s.clockLine k
  let r := s.retained k
  enc8 t.code ++ enc8 ln.mode.code ++ enc16 (posCode r.position) ++
    enc8 (flagBit r.valid 0 + flagBit (decide (r.polarity = .b)) 1 + flagBit ln.pulse.isSome 2 +
      flagBit ln.gapEnd.isSome 3 + flagBit ln.pending.isSome 4 + flagBit ln.correction.isSome 5) ++
    enc16 (if s.tb.quality = .invalid then 0xFFFF else truePosition t s.tb.ms) ++
    encPending ln.pending ++ enc16 (corrCode (ln.correction.getD 0))

/-- The circuit is in dwell. -/
def State.inDwell (s : State) (c : Circuit) : Bool :=
  match s.csv.scan with
  | .dwell d _ _ => decide (d = c)
  | .idle => false
  | .parked _ => false

/-- CIRCSTATE (R151, R197). -/
def State.encCircState (s : State) (c : Circuit) : List Byte :=
  let r := s.circ c
  enc8 (flagBit (s.supCfg c).enabled 0 + flagBit r.isolated 1 + flagBit r.recoverable 2 + flagBit (s.inDwell c) 3) ++
    enc8 r.state.code ++ enc8 r.count ++ enc8 (kindCode r.kind) ++
    enc16 (match r.last with
      | some b => b.toNat
      | none => 0xFFFF)

/-! ## Spaces (R178, R196) -/

/-- The fifteen table spaces. -/
inductive Space where
  | sched (bank : Bank)
  | calendar | weekplan | windows | zoneattr | tones | clockcfg | supcfg | drillprog | nodecfg
  | counters | drillres | clockstate | circstate
deriving DecidableEq, Repr

/-- R196: the spaces in the order of R178. -/
def allSpaces : List Space :=
  [.sched .a, .sched .b, .calendar, .weekplan, .windows, .zoneattr, .tones, .clockcfg, .supcfg, .drillprog, .nodecfg,
    .counters, .drillres, .clockstate, .circstate]

/-- R196: the space a number names. -/
def spaceOf (b : Byte) : Option Space := allSpaces[b.toNat]?

/-- R178: the number of records. -/
def Space.records : Space → Nat
  | .sched _ => 256 | .calendar => 64 | .weekplan => 7 | .windows => 8 | .zoneattr => 24 | .tones => 16 | .clockcfg => 8
  | .supcfg => 32 | .drillprog => 4 | .nodecfg => 1 | .counters => 71 | .drillres => 1 | .clockstate => 8
  | .circstate => 32

/-- R197: the bytes of a record. -/
def Space.bytes : Space → Nat
  | .sched _ => 14 | .calendar => 4 | .weekplan => 1 | .windows => 7 | .zoneattr => 7 | .tones => 42 | .clockcfg => 9
  | .supcfg => 7 | .drillprog => 11 | .nodecfg => 17 | .counters => 2 | .drillres => 32 | .clockstate => 12
  | .circstate => 6

/-- R197: the records of the space that fit in one WRITE_TABLE of 235 bytes. -/
def Space.perWrite (sp : Space) : Nat := 235 / sp.bytes

/-- R197: the records of the space that fit in one reply of 234 bytes. -/
def Space.perRead (sp : Space) : Nat := 234 / sp.bytes

/-- R179: every record of a space, as a READ_TABLE carries it. -/
def State.readSpace (s : State) : Space → List (List Byte)
  | .sched k => (s.bs.bank k).toList.map encSched
  | .calendar => s.bs.calendar.toList.map encCalendar
  | .weekplan => s.bs.week.toList.map encWeek
  | .windows => s.zm.windows.toList.map encWindow
  | .zoneattr => s.zm.attrs.toList.map encAttr
  | .tones => s.za.tones.toList.map encTone
  | .clockcfg => s.cld.cfg.toList.map encClock
  | .supcfg => s.csv.cfg.toList.map encSup
  | .drillprog => s.fdc.programs.toList.map encDrill
  | .nodecfg => [encNode s.mu.node]
  | .counters => s.counters.toList.map enc16
  | .drillres => [encRoll s.fdc.roll]
  | .clockstate => allLines.map s.encClockState
  | .circstate => allCircuits.map s.encCircState

/-! ## The records of a WRITE_TABLE (R180) -/

/-- The bytes of the record at place i of the data. -/
def recordAt (size : Nat) (data : List Byte) (i : Nat) : List Byte := (data.drop (i * size)).take size

/-- The records carried, each with its owner's verdict; the decoder is given the record's number in the space. -/
def decodeRecords {α : Type} (dec : Nat → List Byte → Option α) (size start count : Nat) (data : List Byte) :
    List (Option α) :=
  (List.range count).map (fun i => dec (start + i) (recordAt size data i))

/-- R180: the space index of the first invalid record. -/
def firstBad {α : Type} (start : Nat) (rs : List (Option α)) : Option Nat :=
  (rs.findIdx? (·.isNone)).map (start + ·)

/-- R180: the records written into their places. -/
def writeRecords {α : Type} {n : Nat} (v : Vector α n) (start : Nat) (rs : List (Option α)) : Vector α n :=
  Vector.ofFn (fun i : Fin n =>
    if start ≤ i.val then
      match rs[i.val - start]? with
      | some (some x) => x
      | _ => v[i]
    else v[i])

end Sys2Proof.Machine
end

