-- ==== Sys2Proof/Machine/Requests.lean ====
section
/-! DEFINITION. The Management Unit's requests (Chapter 10): the taking of a request (R176), PING and READ_STATUS (R177), the
tables (R179, R180), and the owners' part in each request (R59, R60, R62, R63, R85, R91, R92, R130, R132, R148, R150, R181,
R182, R188). In each the reply joins UP normal ahead of the notices the request raises. -/

namespace Sys2Proof.Machine

/-! ## Taking a request -/

/-- R176, R192: a matched request is counted; while reset pending is set it is refused with BUSY. -/
def State.takeRequest (s : State) (tag req : Byte) (act : State → State) : State :=
  let t := s.count .mgmtRequests
  if t.mu.resetPending then t.reply tag req .busy [] else act t

/-- A reply of OK without results. -/
def State.ok (s : State) (tag req : Byte) : State := s.reply tag req .ok []

/-- R196: the drill id as a reply carries it: a free value in IDLE. -/
def State.drillIdBytes (s : State) (n place : Nat) : List Byte :=
  match s.fdc.drill with
  | some d => enc16 d.id.toNat
  | none => [Config.unusedByte n place, Config.unusedByte n (place + 1)]

/-- R177, R196: the results of PING. -/
def State.pingResults (s : State) (n : Nat) : List Byte :=
  [Config.family, Config.revision] ++ enc16 s.mu.addr.toNat ++ enc8 (hopCode s.line.hop) ++ enc8 s.tb.quality.code ++
    enc8 s.fdc.fire.code ++ enc8 (drillCode s.fdc.drill) ++ s.drillIdBytes n 8

def State.ping (tag : Byte) (s : State) : State := s.draw.2.reply tag 1 .ok (s.pingResults s.draw.1)

/-! ## READ_STATUS -/

/-- R196, offsets 35 to 66: a page record; the fields of a free record after its state byte are free values. -/
def pageStatus (n place : Nat) : Option Call → List Byte
  | some c => enc8 (128 + c.state.code) ++ enc8 c.channel ++ enc8 c.priority ++ enc8 c.fifo.length
  | none => [0, Config.unusedByte n (place + 1), Config.unusedByte n (place + 2), Config.unusedByte n (place + 3)]

/-- R196, offsets 26 to 28: the SEL flags. -/
def State.selStatus (s : State) : List Byte :=
  enc24 (allOutputs.foldl (fun n o => n + flagBit s.zm.sel[o] o.val) 0)

/-- R196, offsets 29 to 34: the force states of four outputs to a byte, the first in the highest bits. -/
def State.forceStatus (s : State) : List Byte :=
  let code : Nat → Nat := fun o => if h : o < 24 then (s.out ⟨o, h⟩).force.code else 0
  (List.range 6).map (fun i =>
    BitVec.ofNat 8 (code (4 * i) * 64 + code (4 * i + 1) * 16 + code (4 * i + 2) * 4 + code (4 * i + 3)))

/-- R196, offsets 20 to 25: the cursor and its time. -/
def State.cursorStatus (s : State) : List Byte :=
  match s.bs.cursor with
  | some i => enc16 i.val ++ enc32 (s.bs.activeBank[i]).time
  | none => enc16 0xFFFF ++ enc32 0xFFFFFFFF

/-- R196, offset 5: the stored epoch; a free value when none is stored. -/
def State.epochStatus (s : State) (n : Nat) : List Byte :=
  match s.tb.epoch with
  | some e => [e]
  | none => [Config.unusedByte n 5]

/-- R196, offset 73: the standing conditions. -/
def State.standingStatus (s : State) : Nat :=
  (s.standing.zipIdx).foldl (fun n p => n + flagBit p.1 p.2) 0

/-- R196: the READ_STATUS record, 77 bytes. -/
def State.statusRecord (s : State) (n : Nat) : List Byte :=
  enc16 s.mu.addr.toNat ++ enc8 (hopCode s.line.hop) ++ enc8 (s.line.up.link.code * 16 + s.line.down.link.code) ++
    enc8 s.tb.quality.code ++ s.epochStatus n ++ enc16 s.tb.day.toNat ++ enc32 s.tb.ms ++ enc16 s.tb.linkDelay ++
    enc8 (flagBit s.tb.sampleTaken 0 + flagBit s.tb.epoch.isSome 1 + flagBit (decide (s.bs.active = .b)) 2 +
      flagBit s.bs.pendingSwap 3) ++
    enc8 (planCode s.bs.plan) ++ enc32 (s.bs.hwm.getD 0xFFFFFFFF) ++ s.cursorStatus ++ s.selStatus ++ s.forceStatus ++
    allRecords.flatMap (fun r => pageStatus n (35 + 4 * r.val) (s.call r)) ++
    enc8 s.fdc.fire.code ++ enc8 (drillCode s.fdc.drill) ++ s.drillIdBytes n 69 ++
    enc8 (flagBit s.fdc.trouble 0 + flagBit s.fdc.roll.isSome 1 + flagBit ((s.fdc.roll.map (·.isOpen)).getD false) 2) ++
    enc8 (flagBit s.mu.save.isSome 0 + flagBit (s.indicator .indA) 1 + flagBit (s.indicator .indB) 2 +
      flagBit s.mu.storeValid 3) ++
    enc8 s.standingStatus ++ enc8 s.mu.imageResult.code ++ enc16 s.mu.factoryMask.toNat

def State.status (tag : Byte) (s : State) : State := s.draw.2.reply tag 6 .ok (s.statusRecord s.draw.1)

/-! ## READ_TABLE (R179) -/

/-- R179: the counters of a range are set to 0. -/
def State.clearCounters (s : State) (start n : Nat) : State :=
  { s with counters := Vector.ofFn (fun i : Fin 71 => if start ≤ i.val ∧ i.val < start + n then 0 else s.counters[i]) }

/-- R179: how many records a read of a known space returns. -/
def Space.readCount (sp : Space) (start count : Nat) : Nat := min (min count (sp.records - start)) sp.perRead

/-- R179: a READ_TABLE that passes its checks: one reading, the clear, and the reply. -/
def State.readRecords (tag space : Byte) (sp : Space) (start count : Nat) (clear : Bool) (s : State) : State :=
  let n := sp.readCount start count
  let recs := ((s.readSpace sp).drop start).take n
  (if clear then s.clearCounters start n else s).reply tag 3 .ok
    ([space] ++ enc16 start ++ enc8 n ++ recs.flatten)

def State.readTable (tag space : Byte) (start : Word16) (count clear : Byte) (s : State) : State :=
  match spaceOf space with
  | none => s.reply tag 3 .badSpace []
  | some sp =>
    if count = 0 ∨ sp.records ≤ start.toNat ∨ (clear.getLsbD 0 ∧ sp ≠ .counters) then s.reply tag 3 .badRange []
    else s.readRecords tag space sp start.toNat count.toNat (clear.getLsbD 0)

/-! ## WRITE_TABLE (R180) -/

/-- R180, steps 2 and 3. -/
def State.writeRefusal (s : State) (sp : Space) (start count : Nat) (data : List Byte) : Option Status :=
  if count = 0 ∨ sp.records < start + count ∨ sp.perWrite < count ∨ data.length ≠ count * sp.bytes then some .badRange
  else if s.mu.save.isSome then some .busy
  else none

/-- R180: a write of a known, writable space: steps 2 to 5, then the reply and the owner's change. -/
def State.writeTable {α : Type} (tag : Byte) (sp : Space) (dec : Nat → List Byte → Option α) (owner : Option Status)
    (start : Word16) (count : Byte) (data : List Byte) (change : List (Option α) → State → State) (s : State) : State :=
  match s.writeRefusal sp start.toNat count.toNat data, owner with
  | some st, _ => s.reply tag 4 st []
  | none, some st => s.reply tag 4 st []
  | none, none =>
    let rs := decodeRecords dec sp.bytes start.toNat count.toNat data
    match firstBad start.toNat rs with
    | some i => s.reply tag 4 .badRecord (enc16 i)
    | none => change rs (s.ok tag 4)

/-- R59: the refusals of the schedule banks. -/
def State.schedRefusal (s : State) (bank : Bank) : Option Status :=
  if bank = s.bs.active then some .bankActive else if s.bs.pendingSwap then some .pendingSwap else none

/-- R59: the records go into the bank written. -/
def State.changeSched (bank : Bank) (start : Nat) (rs : List (Option SchedEntry)) (s : State) : State :=
  match bank with
  | .a => { s with bs := { s.bs with bankA := writeRecords s.bs.bankA start rs } }
  | .b => { s with bs := { s.bs with bankB := writeRecords s.bs.bankB start rs } }

/-- R64: a write of CALENDAR or WEEKPLAN derives the plan for the current D, while quality is not INVALID. -/
def State.rederive (s : State) : State := if s.tb.quality = .invalid then s else s.derivePlan s.tb.day

def State.changeCalendar (start : Nat) (rs : List (Option CalendarEntry)) (s : State) : State :=
  { s with bs := { s.bs with calendar := writeRecords s.bs.calendar start rs } }.rederive

def State.changeWeek (start : Nat) (rs : List (Option Plan)) (s : State) : State :=
  { s with bs := { s.bs with week := writeRecords s.bs.week start rs } }.rederive

def State.changeWindows (start : Nat) (rs : List (Option Window)) (s : State) : State :=
  { s with zm := { s.zm with windows := writeRecords s.zm.windows start rs } }

/-- R45, R85: the attributes change; under the drill mute the winner is chosen anew where EVAC has changed. -/
def State.changeAttrs (start : Nat) (rs : List (Option ZoneAttr)) (s : State) : State :=
  let t := { s with zm := { s.zm with attrs := writeRecords s.zm.attrs start rs } }
  if t.drillMute then
    rechooseAll (allOutputs.filter (fun o => decide ((t.attr o).evac ≠ (s.attr o).evac))) t
  else t

def State.changeTones (start : Nat) (rs : List (Option TonePattern)) (s : State) : State :=
  { s with za := { s.za with tones := writeRecords s.za.tones start rs } }

/-- R132, R133: the records are written in one act, and each line carried acts on its change, in order from K0, which the
manual does not state (the model's choice, assumption log 38). -/
def State.changeClocks (start : Nat) (rs : List (Option ClockCfg)) (s : State) : State :=
  allLines.foldl (fun t k => t.clockCfgChanged k (s.clockCfg k))
    { s with cld := { s.cld with cfg := writeRecords s.cld.cfg start rs } }

/-- R150: what the scan does when a write has enabled and disabled circuits. `before` is the scan at the write, and
`joined` is set when the write enables a circuit. -/
def State.scanAfterWrite (s : State) (before : Scan) (joined : Bool) : State :=
  match before with
  | .idle => if joined then s.scanFromLowest else s.setScan .idle
  | .dwell c start len =>
    if (s.supCfg c).enabled then settleScan (s.setScan (.dwell c start len)) else s.scanNext c
  | .parked c => if s.visitOrder c = [] then s.setScan .idle else settleScan (s.setScan (.parked c))

/-- R150: the records are written in one act, the circuits disabled leave FAULT, and the scan goes on. The circuits are taken
in ascending order, each with its RECOVERED and the notices of its clock line before the next, which the manual does not
state (the model's choice, assumption log 39). -/
def State.changeSups (start : Nat) (rs : List (Option SupCfg)) (s : State) : State :=
  let t := { s with csv := { s.csv with cfg := writeRecords s.csv.cfg start rs, scan := .idle } }
  let off := allCircuits.filter (fun c => (s.supCfg c).enabled && !(t.supCfg c).enabled)
  let joined := allCircuits.any (fun c => !(s.supCfg c).enabled && (t.supCfg c).enabled)
  (off.foldl State.disable t).scanAfterWrite s.csv.scan joined

def State.changeDrills (start : Nat) (rs : List (Option DrillProg)) (s : State) : State :=
  { s with fdc := { s.fdc with programs := writeRecords s.fdc.programs start rs } }

/-- R181, R17: the settings change, and L follows the default link delay until a sample has been taken. -/
def State.changeNode (start : Nat) (rs : List (Option NodeCfg)) (s : State) : State :=
  let n := (writeRecords #v[s.mu.node] start rs)[0]
  let t := { s with mu := { s.mu with node := n } }
  if s.tb.sampleTaken then t else { t with tb := { t.tb with linkDelay := n.linkDelay } }

/-! ## The other requests -/

/-- R182, R183: SET_ADDR. -/
def State.setAddr (h : Hdr) (addr : Word16) (s : State) : State :=
  if h.mode ≠ 1 then s.reply h.tag 2 .badState []
  else if addr = 0 ∨ 1000 < addr.toNat then s.reply h.tag 2 .badRange []
  else if s.mu.save.isSome then s.reply h.tag 2 .busy []
  else
    let old := s.mu.addr
    let t := { s with mu := { s.mu with addr := addr, unassignedEnd := none } }.reply h.tag 2 .ok (enc16 addr.toNat)
    if old = addr then t else t.raise .mgmt 2 (enc16 old.toNat ++ enc16 addr.toNat)

/-- R60: ACTIVATE_BANK. -/
def State.activate (tag : Byte) (s : State) : State :=
  if s.bs.pendingSwap then s.ok tag 5
  else
    match firstOutOfOrder s.bs.standbyBank with
    | some i => s.reply tag 5 .order (enc16 i.val)
    | none => { s with bs := { s.bs with pendingSwap := true } }.ok tag 5

/-- R130: the polarity argument: A, B, or none for KEEP. -/
def polarityArg (b : Byte) : Option Polarity := if b = 0 then some .a else if b = 1 then some .b else none

/-- R130, R131: RESYNC_CLOCK on a line. -/
def State.takeResync (tag : Byte) (k : LineNo) (i : Nat) (pol : Option Polarity) (s : State) : State :=
  let t := (s.ok tag 7).count .clockResyncs
  if (t.clockLine k).pulse.isSome then t.setClockLine k { t.clockLine k with pending := some (.position i pol) }
  else t.resync k i pol

/-- R130: the checks of RESYNC_CLOCK. -/
def State.resyncClock (tag line : Byte) (position : Word16) (polarity : Byte) (s : State) : State :=
  if h : line.toNat < 8 then
    let k : LineNo := ⟨line.toNat, h⟩
    let t := (s.clockCfg k).type
    if 2 < polarity.toNat ∨ (t ≠ .off ∧ t.dial ≤ position.toNat) then s.reply tag 7 .badRange []
    else if t = .off then s.reply tag 7 .badState []
    else s.takeResync tag k position.toNat (polarityArg polarity)
  else s.reply tag 7 .badRange []

/-- R148: RECOVER_CIRCUIT. -/
def State.recover (tag circuit : Byte) (s : State) : State :=
  if h : circuit.toNat < 32 then
    let c : Circuit := ⟨circuit.toNat, h⟩
    if (s.circ c).state = .fault then
      if (s.circ c).recoverable then
        (s.ok tag 8).leaveFault c { CircRecord.fresh with last := (s.circ c).last } .request
      else s.reply tag 8 .badState []
    else s.ok tag 8
  else s.reply tag 8 .badRange []

def State.setForce (s : State) (o : Output) (f : ForceState) : State := s.setOut o { s.out o with force := f }

/-- R92: an accepted ON. -/
def State.applyOn (o : Output) (s : State) : State :=
  if (s.out o).force = .on then s
  else rechooseAll [o] ((s.setForce o .on).addClaim ⟨.force, 2, .continuous, none⟩ o)

/-- R92: an accepted OFF. -/
def State.applyOff (o : Output) (s : State) : State :=
  if (s.out o).force = .off then s else rechooseAll [o] ((s.setForce o .off).dropClaim .force o)

/-- R92: a RELEASE. -/
def State.applyRelease (o : Output) (s : State) : State := rechooseAll [o] ((s.setForce o .none).dropClaim .force o)

/-- R91: FORCE_OUTPUT ON. -/
def State.forceOn (tag output : Byte) (s : State) : State :=
  if h : output.toNat < 24 then
    if 16 ≤ output.toNat then s.reply tag 9 .badRange []
    else if s.mu.node.allowForceOn then (s.ok tag 9).applyOn ⟨output.toNat, h⟩
    else s.reply tag 9 .denied []
  else s.reply tag 9 .badRange []

/-- R91: FORCE_OUTPUT OFF. -/
def State.forceOff (tag output : Byte) (s : State) : State :=
  if h : output.toNat < 24 then
    if s.mu.node.allowForceOff then (s.ok tag 9).applyOff ⟨output.toNat, h⟩ else s.reply tag 9 .denied []
  else s.reply tag 9 .badRange []

/-- R91: FORCE_OUTPUT RELEASE. -/
def State.forceRelease (tag output : Byte) (s : State) : State :=
  if h : output.toNat < 24 then (s.ok tag 9).applyRelease ⟨output.toNat, h⟩ else s.reply tag 9 .badRange []

/-- R187, R188: the snapshot of a save. -/
def State.snapshot (s : State) : Image :=
  { addr := s.mu.addr, node := s.mu.node, sched := s.bs.activeBank, calendar := s.bs.calendar, week := s.bs.week,
    windows := s.zm.windows, attrs := s.zm.attrs, tones := s.za.tones, clocks := s.cld.cfg, sups := s.csv.cfg,
    drills := s.fdc.programs }

/-- R188, R187: SAVE_IMAGE; the save first makes the image fail its check. -/
def State.saveImage (tag : Byte) (s : State) : State :=
  if s.mu.save.isSome then s.reply tag 10 .busy []
  else { s with mu := { s.mu with save := some ⟨s.snapshot, tag⟩ }, image := none }

/-- R188: the save completes. -/
def State.saveDone (s : State) : State :=
  match s.mu.save with
  | some v => { s with mu := { s.mu with save := none }, image := some v.snapshot }.ok v.tag 10
  | none => s

/-- The request code that a payload carries, a free value when it is empty. -/
def State.requestCode (s : State) (payload : List Byte) : Byte := payload.headD (Config.unusedByte s.draws 0)

/-- R176: a request that is none of the table or does not hold its arguments. -/
def State.unknownRequest (tag : Byte) (payload : List Byte) (s : State) : State :=
  s.draw.2.takeRequest tag (s.requestCode payload) (fun t => t.reply tag (s.requestCode payload) .badRange [])

end Sys2Proof.Machine
end

