-- ==== Sys2Proof/Machine/Resets.lean ====
section
/-! DEFINITION. The two resets: the line reset (R192, with R21, R42, R78, R97, R117, R138, R153 and R175), the loss of a link
and the end of a transmission, which can take it (R24, R38), the node held in reset (R191), and the full reset with the
loading of the image (R189) and the check of the Retained Store (R190). -/

namespace Sys2Proof.Machine

/-! ## The line reset -/

/-- R42: a port keeps its link, its timers, its reception and its transmission; its queues are flushed. -/
def Port.flushed (v : Port) : Port := { v with express := [], normal := [] }

/-- R138: a line loses its correction record. -/
def ClockLine.afterLineReset (v : ClockLine) : ClockLine := { v with correction := none }

/-- R175: the Fire and Drill Controller after a line reset. -/
def FireDrill.afterLineReset (f : FireDrill) : FireDrill :=
  { f with fire := .quiet, count := 0, troubleRun := 0, trouble := false, fireSet := none, drill := none, roll := none }

/-- The state of every block after a line reset, before its notices, its visit of the scan and its evaluations. -/
def State.lineResetValues (s : State) : State :=
  { s with
    line := { s.line with up := s.line.up.flushed, down := s.line.down.flushed },
    tb := { s.tb with timeoutEnd := none, echo := .idle },
    zm := { s.zm with sel := Vector.replicate 24 false },
    bs := { s.bs with pendingSwap := false },
    za := { s.za with outputs := Vector.replicate 24 .reset },
    pe := { s.pe with calls := Vector.replicate 8 none },
    cld := { s.cld with lines := s.cld.lines.map ClockLine.afterLineReset },
    csv := { s.csv with records := Vector.replicate 32 .fresh, scan := .idle },
    fdc := s.fdc.afterLineReset,
    mu := { s.mu with resetPending := false },
    counters := Vector.replicate 71 0 }

/-- R192: the line reset, one event for every block. Its notices stand in the order of R192: START, QUALITY, DRILL_ENDED,
then those of the evaluations. -/
def State.lineReset (s : State) : State :=
  let t := s.lineResetValues.raise .mgmt 1 (enc8 1)
  let t := if t.tb.quality = .synced then t.setQuality .holdover else t
  let t :=
    match s.fdc.drill with
    | some d => t.raise .drill 4 (s.drillEndedArgs d .abortedReset)
    | none => t
  allLines.foldl State.evaluate t.scanFromLowest

/-! ## The events that can take it -/

/-- R192: LINE_RESET, reset pending being clear. A reply dropped at the full queue takes the line reset at once. -/
def State.askLineReset (tag : Byte) (s : State) : State :=
  if s.mu.save.isSome then s.reply tag 11 .busy []
  else
    let t := { s with mu := { s.mu with resetPending := true } }.joinOwn (replyFrame tag 11 .ok []) .resetReply .repliesLost
    if s.hasRoom .upNormal then t else t.lineReset

/-- R38, R192: the frame being sent has been sent to its end. -/
def State.transmissionEnds (s : State) (p : PortId) : State :=
  match (s.port p).tx with
  | some x =>
    if x.ends ≤ s.now then
      let t := s.setPort p { s.port p with tx := none, lastTxEnd := some s.now }
      if x.origin = .resetReply then t.lineReset else t
    else s
  | none => s

/-- R24, R15: what the loss of the port does beyond the port itself. `flushed` holds the frames flushed. -/
def State.portLost (s : State) (flushed : List QItem) : PortId → State
  | .down => s.raise .line 3 (enc16 flushed.length)
  | .up =>
    let t := s.cutCalls
    let t := { t with tb := { t.tb with echo := .idle, echoPeriod := none } }
    if flushed.any (fun i => decide (i.origin = .resetReply)) then t.lineReset else t

/-- R24: an ACTIVE port loses its line signal. -/
def State.signalLost (s : State) (p : PortId) : State :=
  let v := s.port p
  if v.link = .active then
    let flushed := v.express ++ v.normal
    let t := (s.setPort p { v.flushed with link := .absent, rx := none }).count (lossCounter p)
    let t := if v.rx.isSome then t.count (abortedCounter p) else t
    (t.countN (flushedCounter p) flushed.length).portLost flushed p
  else s

/-! ## Held in reset -/

/-- R191: what a line loses when the node is held: its pulse, its waits and what is pending. -/
def ClockLine.held (v : ClockLine) : ClockLine := { v with pulse := none, pending := none, gapEnd := none, correction := none }

/-- R190: the store keeps its contents while either supply is present and loses them when both are absent. -/
def RetainedStore.kept (r : RetainedStore) (mainPower : Bool) : RetainedStore :=
  if mainPower || r.supply then r else { r with checkOk := false }

/-- R191, R188, R190: the node is held in reset. Nothing is driven, and every frame and operation in flight is lost; an image
whose writing is cut fails its check, and the store loses its contents where main power falls with the backup supply
absent. Main power that has fallen is taken as absent until FULL_RESET, also where it returns while the pin is still held
(DESIGN CHOICE, unsafe, assumption log 47). -/
def State.hold (s : State) (cause : ResetCause) : State :=
  { s with
    held := true,
    mainPower := s.mainPower && decide (cause = .pin),
    rs := s.rs.kept (s.mainPower && decide (cause = .pin)),
    line := .reset,
    tb := { s.tb with echo := .idle, echoPeriod := none, timeoutEnd := none },
    za := { s.za with outputs := Vector.replicate 24 .reset },
    pe := { s.pe with calls := Vector.replicate 8 none },
    cld := { s.cld with lines := s.cld.lines.map ClockLine.held },
    csv := { s.csv with scan := .idle },
    mu := { s.mu with save := none, resetPending := false },
    image := if s.mu.save.isSome then none else s.image }

/-- R190: the backup supply fails; the store loses its contents when main power is absent too, and at a later fall of main
power otherwise. Main power counts as absent from its fall to the next FULL_RESET (the model's choice, assumption log 47). -/
def State.backupLost (s : State) : State := { s with rs := { s.rs with supply := false }.kept s.mainPower }

/-! ## Loading the image (R189) -/

/-- R189: every record of a space passes the owner's checks of a WRITE_TABLE. -/
def spaceGood {α : Type} [DecidableEq α] {n : Nat} (dec : Nat → List Byte → Option α) (enc : α → List Byte)
    (v : Vector α n) : Bool :=
  v.toList.zipIdx.all (fun p => decide (dec p.2 (enc p.1) = some p.1))

/-- R189, R77: whether each part of an image is loaded, in the order of the mask: the address, then the spaces 0 and 2 to
10. -/
def Image.partsGood (i : Image) : List Bool :=
  [ decide (i.addr.toNat ≤ 1000),
    spaceGood (fun _ => decSched) encSched i.sched && decide (firstOutOfOrder i.sched = none),
    spaceGood (fun _ => decCalendar) encCalendar i.calendar,
    spaceGood (fun _ => decWeek) encWeek i.week,
    spaceGood (fun _ => decWindow) encWindow i.windows,
    spaceGood decAttr encAttr i.attrs,
    spaceGood (fun _ => decTone) encTone i.tones,
    spaceGood (fun _ => decClock) encClock i.clocks,
    spaceGood decSup encSup i.sups,
    spaceGood (fun _ => decDrill) encDrill i.drills,
    spaceGood (fun _ => decNode) encNode #v[i.node] ]

/-- R196: the bit of each part in the factory mask. -/
def partBits : List Nat := [0, 1, 3, 4, 5, 6, 7, 8, 9, 10, 11]

/-- R196: the factory mask of the parts that fail. -/
def factoryMaskOf (good : List Bool) : Word16 :=
  BitVec.ofNat 16 ((good.zip partBits).foldl (fun n p => n + flagBit (!p.1) p.2) 0)

/-- R189: the settings taken from a valid image, a part that fails taking its factory values. -/
def Image.checked (i : Image) : Image :=
  let g : Nat → Bool := fun k => i.partsGood.getD k false
  { addr := if g 0 then i.addr else 0,
    sched := if g 1 then i.sched else Image.factory.sched,
    calendar := if g 2 then i.calendar else Image.factory.calendar,
    week := if g 3 then i.week else Image.factory.week,
    windows := if g 4 then i.windows else Image.factory.windows,
    attrs := if g 5 then i.attrs else Image.factory.attrs,
    tones := if g 6 then i.tones else Image.factory.tones,
    clocks := if g 7 then i.clocks else Image.factory.clocks,
    sups := if g 8 then i.sups else Image.factory.sups,
    drills := if g 9 then i.drills else Image.factory.drills,
    node := if g 10 then i.node else Image.factory.node }

/-- R189: the settings loaded, the image result and the mask. -/
def loadImage : Option Image → Image × ImageResult × Word16
  | none => (Image.factory, .factory, 0x0FFB)
  | some i => (i.checked, if i.partsGood.all id then .loaded else .someFactory, factoryMaskOf i.partsGood)

/-! ## The Retained Store (R190, R120) -/

/-- R190: the store is valid. -/
def RetainedStore.valid (r : RetainedStore) : Bool := r.checkOk && r.timeWritten

/-- R120: a line's retained record taken with the type loaded for it. -/
def Retained.loaded (r : Retained) (t : ClockType) : Retained :=
  let inDial : Bool :=
    match r.position with
    | some i => decide (i < t.dial)
    | none => true
  if r.type = t.kept ∧ inDial then r else { r with position := none, valid := false, type := t.kept }

/-- R190: the store after the check of a full reset. -/
def RetainedStore.checked (r : RetainedStore) (clocks : Vector ClockCfg 8) : RetainedStore :=
  if r.valid then { r with lines := Vector.ofFn (fun k : LineNo => (r.lines[k]).loaded (clocks[k]).type) }
  else
    { supply := r.supply, checkOk := true, timeWritten := false, day := 0, second := 0,
      lines := Vector.ofFn (fun k : LineNo => Retained.blank (clocks[k]).type) }

/-! ## The full reset -/

/-- R20: the Timebase after a full reset. -/
def Timebase.started (linkDelay : Nat) (r : RetainedStore) : Timebase :=
  if r.valid then { Timebase.reset linkDelay with day := r.day, ms := r.second * 1000, quality := .backup }
  else Timebase.reset linkDelay

/-- R185, R196: the arguments of START of a full reset. -/
def startArgs (res : ImageResult) (mask : Word16) (valid : Bool) : List Byte :=
  enc8 0 ++ enc8 res.code ++ enc16 mask.toNat ++ enc8 (flagBit valid 0)

/-- The full-reset values of every block (R20, R41, R57, R77, R96, R116, R137, R152, R174, R191), with the settings
loaded. `holdDown` and `sweepDown` are the key levels read at the reset; `supply` is whether the backup supply is present
at it (assumption log 40); main power is present from it on (assumption log 47). -/
def State.fullResetValues (s : State) (holdDown : Bool) (sweepDown : Byte) (supply : Bool) : State :=
  let img := (loadImage s.image).1
  let rs := { s.rs.checked img.clocks with supply := supply }
  { now := s.now, held := false, mainPower := true,
    line := .reset,
    tb := .started img.node.linkDelay s.rs,
    zm := { windows := img.windows, attrs := img.attrs, sel := Vector.replicate 24 false },
    bs := { bankA := img.sched, bankB := emptyBank, active := .a, pendingSwap := false, calendar := img.calendar,
            week := img.week, plan := none, hwm := none, cursor := cursorOf img.sched none },
    za := { outputs := Vector.replicate 24 .reset, tones := img.tones },
    pe := { calls := Vector.replicate 8 none, openOrder := 0, nextTick := s.now + Config.frameClockUs },
    cld := { cfg := img.clocks, lines := img.clocks.map (fun c => ClockLine.reset c.type) },
    csv := { cfg := img.sups, records := Vector.replicate 32 .fresh, scan := .idle },
    fdc := { fire := .quiet, count := 0, troubleRun := 0, trouble := false, fireSet := none, drill := none,
             programs := img.drills, roll := none,
             sweeps := Vector.ofFn (fun i : Fin 8 => Key.atReset (sweepDown.getLsbD i.val) s.now),
             holdKey := .atReset holdDown s.now, nextCheck := s.now + Config.fireCheckUs },
    mu := { addr := img.addr, node := img.node, save := none, resetPending := false,
            unassignedEnd := if img.addr = 0 then some (s.now + Config.unassignedUs) else none,
            imageResult := (loadImage s.image).2.1, factoryMask := (loadImage s.image).2.2, storeValid := s.rs.valid },
    rs := rs,
    image := s.image,
    counters := Vector.replicate 71 0, draws := s.draws, pending := s.pending }

/-- R20, R191: a start in BACKUP: the notice QUALITY, then the start event. -/
def State.startBackup (s : State) : State :=
  (s.raise .time 1 (enc8 Quality.invalid.code ++ enc8 Quality.backup.code ++ enc16 (epochCode none))).startEvent

/-- R191: the release of reset. -/
def State.release (s : State) (holdDown : Bool) (sweepDown : Byte) (supply : Bool) : State :=
  let t := (s.fullResetValues holdDown sweepDown supply).scanFromLowest
  let t := t.raise .mgmt 1 (startArgs t.mu.imageResult t.mu.factoryMask t.mu.storeValid)
  if t.mu.storeValid then t.startBackup else t

end Sys2Proof.Machine
end

