-- ==== Sys2Proof/Machine/CircuitEvents.lean ====
section
/-! DEFINITION. The meanings of the events of the clock lines and of supervision (Chapters 7 and 8). -/

namespace Sys2Proof.Machine

/-- R126: the check result of a reading. -/
def Pulse.judged (p : Pulse) (reading : Byte) : Option FaultKind :=
  if p.shortLim < reading.toNat then some .short
  else if reading.toNat < p.openLim then some .openLine
  else none

/-- R135: PULSE_FAULT. -/
def State.pulseFault (s : State) (k : LineNo) (kind : FaultKind) (reading : Byte) : State :=
  s.raise .clock 4 (enc8 k.val ++ enc8 kind.code ++ [reading] ++ enc16 (posCode (s.retained k).position))

def State.setPulse (s : State) (k : LineNo) (p : Pulse) : State :=
  s.setClockLine k { s.clockLine k with pulse := some p }

/-- R126 to R128, R149: the in-pulse check of a pulse whose result is pending. A GOOD reading leaves the circuit's last
reading as it was, though R139 names the in-pulse checks beside the scan (DESIGN CHOICE, unsafe, assumption log 42). PULSE_OPEN
is counted at the reading, as R128 places it, and not at the end that R136 names (DESIGN CHOICE, unsafe, assumption log 46). -/
def State.checkPulse (s : State) (k : LineNo) (p : Pulse) (reading : Byte) : State :=
  match p.judged reading with
  | some .short =>
    (((s.currentFault k .short reading).count .pulseShort).pulseFault k .short reading).endPulse k p.polarity false
  | some .openLine =>
    (((s.setPulse k { p with result := .openLine }).currentFault k .openLine reading).count .pulseOpen).pulseFault k
      .openLine reading
  | none => s.setPulse k { p with result := .good }

/-- PULSE_MID_CHECK (R126). -/
def execPulseMidCheck (dt : Nat) (k : Fin 8) (reading : Byte) (s : State) : Host.Outcome State Fault Refusal :=
  .next (live dt (fun t =>
    match (t.clockLine k).pulse with
    | some p => if p.result = .pending ∧ p.midDue ≤ t.now then t.checkPulse k p reading else t
    | none => t) s)

/-- PULSE_END (R128, R129, R131). -/
def execPulseEnd (dt : Nat) (k : Fin 8) (s : State) : Host.Outcome State Fault Refusal :=
  .next (live dt (fun t =>
    match (t.clockLine k).pulse with
    | some p =>
      if p.result ≠ .pending ∧ p.due ≤ t.now then t.endPulse k p.polarity (decide (p.result = .good)) else t
    | none => t) s)

/-- GAP_WAIT_END (R124). -/
def execGapWaitEnd (dt : Nat) (k : Fin 8) (s : State) : Host.Outcome State Fault Refusal :=
  .next (live dt (fun t => if t.expired (t.clockLine k).gapEnd then t.evaluate k else t) s)

/-- R143: the end of a dwell: the reading is judged and the scan goes on. -/
def State.dwellEnds (s : State) (reading : Byte) : State :=
  match s.csv.scan with
  | .dwell c start len =>
    if start + len ≤ s.now then ((s.setScan .idle).judge c reading).scanNext c else s
  | .idle => s
  | .parked _ => s

/-- DWELL_END (R143 to R146). -/
def execDwellEnd (dt : Nat) (reading : Byte) (s : State) : Host.Outcome State Fault Refusal :=
  .next (live dt (fun t => t.dwellEnds reading) s)

end Sys2Proof.Machine
end

