-- ==== Sys2Proof/Machine/FireEvents.lean ====
section
/-! DEFINITION. The meanings of the events of the fire input, of a drill's phases and of its keys (Chapter 9). -/

namespace Sys2Proof.Machine

/-- R154: a check of the FIRE channel. -/
def State.checkFire (s : State) (reading : Byte) : State :=
  if s.fdc.nextCheck ≤ s.now then
    { s with fdc := { s.fdc with nextCheck := s.fdc.nextCheck + Config.fireCheckUs } }.fireReading reading
  else s

/-- FIRE_CHECK (R154 to R158). -/
def execFireCheck (dt : Nat) (reading : Byte) (s : State) : Host.Outcome State Fault Refusal :=
  .next (live dt (fun t => t.checkFire reading) s)

/-- A phase deadline: the drill is in the phase and its deadline has passed. -/
def State.atDeadline (s : State) (phase : DrillPhase) (act : Drill → State) : State :=
  match s.fdc.drill with
  | some d => if d.phase = phase ∧ s.expired d.deadline then rechooseAll allOutputs (act d) else s
  | none => s

/-- PRE_ALERT_END (R165, R166). -/
def execPreAlertEnd (dt : Nat) (s : State) : Host.Outcome State Fault Refusal :=
  .next (live dt (fun t => t.atDeadline .preAlert t.enterEvacuate) s)

/-- EVACUATE_END (R166, R167). -/
def execEvacuateEnd (dt : Nat) (s : State) : Host.Outcome State Fault Refusal :=
  .next (live dt (fun t => t.atDeadline .evacuate t.enterHold) s)

/-- HOLD_LIMIT_EXPIRY (R167). -/
def execHoldLimitExpiry (dt : Nat) (s : State) : Host.Outcome State Fault Refusal :=
  .next (live dt (fun t => t.atDeadline .hold (fun d => t.enterAllClear d true)) s)

/-- ALL_CLEAR_PHASE_END (R168). -/
def execAllClearPhaseEnd (dt : Nat) (s : State) : Host.Outcome State Fault Refusal :=
  .next (live dt (fun t => t.atDeadline .allClear (fun d =>
    t.endDrill d (if d.holdLimit then .incomplete else .complete))) s)

/-- R170: the inputs of the drill's mask cleared in its own record, 0 before it has opened one. -/
def State.sweepsSoFar (s : State) (d : Drill) : Nat :=
  match d.phase.recorded, s.fdc.roll with
  | true, some r => sweepsCleared d.prog.sweepMask r.clear
  | _, _ => 0

/-- R170: a multiple of 10 s of run time. -/
def State.progressDue (s : State) : State :=
  match s.fdc.drill with
  | some d =>
    if d.phase ≠ .armed ∧ d.runStart + (d.progress + 1) * Config.progressUs ≤ s.now then
      (s.setDrill (some { d with progress := d.progress + 1 })).raise .drill 3
        (enc16 d.id.toNat ++ enc8 d.phase.code ++ enc16 ((s.now - d.runStart) / 1000000) ++ enc8 (s.sweepsSoFar d))
    else s
  | none => s

/-- DRILL_PROGRESS (R170). -/
def execDrillProgress (dt : Nat) (s : State) : Host.Outcome State Fault Refusal :=
  .next (live dt State.progressDue s)

/-! ## Keys (R169, R172) -/

/-- R169: a press can be taken now. -/
def Key.ready (k : Key) (now : Nat) : Bool := decide (k.readyAt ≤ now)

/-- R169: a key whose press has been taken: a further press needs 50 ms released and 50 ms held. No command stands for a
release, so the level held stays pressed from here to the next full reset; nothing reads it (DESIGN CHOICE, unsafe, assumption
log 13). -/
def Key.pressed (now : Nat) : Key := ⟨true, now + 2 * Config.keyUs⟩

/-- R169: a HOLD key press. -/
def State.takeHoldKey (s : State) : State :=
  match s.fdc.drill with
  | some d => rechooseAll allOutputs (s.endDrill d .abortedLocal)
  | none => s.count .holdKeyIgnored

/-- HOLD_KEY_PRESS (R169). -/
def execHoldKeyPress (dt : Nat) (s : State) : Host.Outcome State Fault Refusal :=
  .next (live dt (fun t =>
    if t.fdc.holdKey.ready t.now then { t with fdc := { t.fdc with holdKey := .pressed t.now } }.takeHoldKey else t) s)

/-- R172: the clear time of a press taken now. -/
def State.clearTime (s : State) (r : RollCall) : Nat := saturate16 ((s.now - r.openedAt) / 1000000)

/-- R167: a press that brings the last input of the drill's mask to a clear time during HOLD ends HOLD. -/
def State.afterStamp (s : State) : State :=
  match s.fdc.drill with
  | some d => if d.phase = .hold ∧ s.maskCleared d then rechooseAll allOutputs (s.enterAllClear d false) else s
  | none => s

/-- R172: a sweep press. -/
def State.takeSweep (s : State) (i : Fin 8) : State :=
  match s.fdc.roll with
  | some r =>
    if r.isOpen ∧ r.clear[i] = none then
      (s.setRoll (some { r with clear := r.clear.set i (some (s.clearTime r)) })).afterStamp
    else s.count .sweepIgnored
  | none => s.count .sweepIgnored

/-- SWEEP_PRESS (R172). -/
def execSweepPress (dt : Nat) (i : Fin 8) (s : State) : Host.Outcome State Fault Refusal :=
  .next (live dt (fun t =>
    if (t.fdc.sweeps[i]).ready t.now then
      { t with fdc := { t.fdc with sweeps := t.fdc.sweeps.set i (.pressed t.now) } }.takeSweep i
    else t) s)

end Sys2Proof.Machine
end

