-- ==== Sys2Proof/Machine/LineEvents.lean ====
section
/-! DEFINITION. The meanings of the line events of Chapter 2: the link states, the reception and the transmission. -/

namespace Sys2Proof.Machine

/-- LINE_SIGNAL_PRESENT (R22). -/
def execLineSignalPresent (dt : Nat) (p : PortId) (s : State) : Host.Outcome State Fault Refusal :=
  .next (live dt (fun t => t.signalPresent p) s)

/-- DEBOUNCE_TIMER_EXPIRY (R22). -/
def execDebounceTimerExpiry (dt : Nat) (p : PortId) (s : State) : Host.Outcome State Fault Refusal :=
  .next (live dt (fun t => t.debounced p) s)

/-- TRAINING_CODE_GROUP (R22). -/
def execTrainingCodeGroup (dt : Nat) (p : PortId) (s : State) : Host.Outcome State Fault Refusal :=
  .next (live dt (fun t => t.retrain p) s)

/-- TRAINING_TIMER_EXPIRY (R22, R23). -/
def execTrainingTimerExpiry (dt : Nat) (p : PortId) (s : State) : Host.Outcome State Fault Refusal :=
  .next (live dt (fun t => t.trained p) s)

/-- LINE_SIGNAL_LOST_IN_ATTACH (R22). -/
def execLineSignalLostInAttach (dt : Nat) (p : PortId) (s : State) : Host.Outcome State Fault Refusal :=
  .next (live dt (fun t => t.attachLost p) s)

/-- LINE_SIGNAL_LOST (R24). -/
def execLineSignalLost (dt : Nat) (p : PortId) (s : State) : Host.Outcome State Fault Refusal :=
  .next (live dt (fun t => t.signalLost p) s)

/-- CODE_VIOLATION_IN_FRAME (R25). -/
def execCodeViolationInFrame (dt : Nat) (p : PortId) (s : State) : Host.Outcome State Fault Refusal :=
  .next (live dt (fun t => t.discardReception p (abortedCounter p)) s)

/-- FRAME_OVERLENGTH (R25). -/
def execFrameOverlength (dt : Nat) (p : PortId) (s : State) : Host.Outcome State Fault Refusal :=
  .next (live dt (fun t => t.discardReception p (lengthCounter p)) s)

/-- FRAME_CHECK_FAILED (R26). -/
def execFrameCheckFailed (dt : Nat) (p : PortId) (bytes : List Byte) (s : State) : Host.Outcome State Fault Refusal :=
  carried (failsCheck bytes) (live dt (fun t => t.dropFailed p bytes) s)

/-- FRAME_START_DELIMITER (R25). -/
def execFrameStartDelimiter (dt : Nat) (p : PortId) (s : State) : Host.Outcome State Fault Refusal :=
  .next (live dt (fun t => t.beginReception p) s)

/-- TRANSMIT_START (R38, R39). -/
def execTransmitStart (dt : Nat) (p : PortId) (s : State) : Host.Outcome State Fault Refusal :=
  .next (live dt (fun t => t.startTransmission p) s)

/-- FRAME_TRANSMIT_END (R38). -/
def execFrameTransmitEnd (dt : Nat) (p : PortId) (s : State) : Host.Outcome State Fault Refusal :=
  .next (live dt (fun t => t.transmissionEnds p) s)

end Sys2Proof.Machine
end

