-- ==== Sys2Proof/Machine/LineFrames.lean ====
section
/-! DEFINITION. The meanings of the line frames of Chapter 2, each with its owner's part: campus time (Chapter 1), pages
(Chapter 6), bells (Chapter 4), groups (Chapter 3) and drills (Chapter 9). -/

namespace Sys2Proof.Machine

/-- TIME (R8 to R14, R18). -/
def execTime (dt : Nat) (h : Hdr) (payload : List Byte) (lag : Word32) (fdcFirst : Bool) (s : State) :
    Host.Outcome State Fault Refusal :=
  carried (fits payload) (live dt (fun t => t.timeFrame h payload lag.toNat fdcFirst) s)

/-- AUDIO (R104). -/
def execAudio (dt : Nat) (h : Hdr) (payload : List Byte) (s : State) : Host.Outcome State Fault Refusal :=
  carried (fits payload) (live dt (fun t => t.audioFrame h payload) s)

/-- PAGE_OPEN (R99). -/
def execPageOpen (dt : Nat) (h : Hdr) (payload : List Byte) (s : State) : Host.Outcome State Fault Refusal :=
  carried (fits payload) (live dt (fun t => t.selective 0x03 h payload (fun u => u.takeOpen payload)) s)

/-- PAGE_CLOSE (R110). -/
def execPageClose (dt : Nat) (h : Hdr) (payload : List Byte) (s : State) : Host.Outcome State Fault Refusal :=
  carried (fits payload) (live dt (fun t => t.selective 0x04 h payload (fun u => u.takeClose payload)) s)

/-- R75: the duration after the clamp. -/
def clampDuration (n : Nat) : Nat := if n = 0 then 1 else if 120 < n then 120 else n

/-- R75: a matched BELL_NOW. -/
def State.takeBellNow (s : State) (payload : List Byte) : State :=
  let pattern := (byteAt payload 5).toNat
  let d := (byteAt payload 6).toNat
  if payload.length ≠ 18 ∨ 15 < pattern then s.count .bellNowBad
  else
    (if clampDuration d = d then s else s.count .bellNowClamped).fireBell false (targetAt payload 0)
      ((byteAt payload 7).getLsbD 0) pattern (clampDuration d)

/-- BELL_NOW (R75). -/
def execBellNow (dt : Nat) (h : Hdr) (payload : List Byte) (s : State) : Host.Outcome State Fault Refusal :=
  carried (fits payload) (live dt (fun t => t.selective 0x05 h payload (fun u => u.takeBellNow payload)) s)

/-- SELECT (R53 to R55). -/
def execSelect (dt : Nat) (h : Hdr) (payload : List Byte) (s : State) : Host.Outcome State Fault Refusal :=
  carried (fits payload) (live dt (fun t => t.selective 0x06 h payload (fun u => u.takeSelect payload)) s)

/-- R161, R195: a matched START frame; its payload holds 18 bytes, its id is not 0, its program and start are in range. -/
def State.takeStartFrame (s : State) (payload : List Byte) : State :=
  let id := word16At payload 1
  let ms := (word32At payload 6).toNat
  if hp : (byteAt payload 3).toNat < 4 then
    if payload.length = 18 ∧ id ≠ 0 ∧ ms < Config.dayMs then
      s.takeStart id ⟨(byteAt payload 3).toNat, hp⟩ (word16At payload 4) ms
    else s.count .drillBad
  else s.count .drillBad

/-- R161, R164: a matched ABORT frame. -/
def State.takeAbortFrame (s : State) (payload : List Byte) : State :=
  if payload.length = 18 then s.takeAbort (word16At payload 1) else s.count .drillBad

/-- R161, R164: a matched ALL_CLEAR frame. -/
def State.takeAllClearFrame (s : State) (payload : List Byte) : State :=
  if payload.length = 18 then s.takeAllClear (word16At payload 1) else s.count .drillBad

/-- DRILL with the command START (R161, R162). -/
def execDrillStart (dt : Nat) (h : Hdr) (rest : List Byte) (s : State) : Host.Outcome State Fault Refusal :=
  carried (fits (1 :: rest)) (live dt (fun t => t.selective 0x07 h (1 :: rest) (fun u => u.takeStartFrame (1 :: rest))) s)

/-- DRILL with the command ABORT (R161, R164). -/
def execDrillAbort (dt : Nat) (h : Hdr) (rest : List Byte) (s : State) : Host.Outcome State Fault Refusal :=
  carried (fits (2 :: rest)) (live dt (fun t => t.selective 0x07 h (2 :: rest) (fun u => u.takeAbortFrame (2 :: rest))) s)

/-- DRILL with the command ALL_CLEAR (R161, R164). -/
def execDrillAllClear (dt : Nat) (h : Hdr) (rest : List Byte) (s : State) : Host.Outcome State Fault Refusal :=
  carried (fits (3 :: rest)) (live dt (fun t => t.selective 0x07 h (3 :: rest) (fun u => u.takeAllClearFrame (3 :: rest))) s)

/-- DRILL with another command, or none (R161). -/
def execDrillBadCommand (dt : Nat) (h : Hdr) (payload : List Byte) (s : State) : Host.Outcome State Fault Refusal :=
  carried (fits payload && badDrillCommand payload)
    (live dt (fun t => t.selective 0x07 h payload (fun u => u.count .drillBad)) s)

/-- MGMT_RPL (R34). -/
def execMgmtRpl (dt : Nat) (h : Hdr) (payload : List Byte) (s : State) : Host.Outcome State Fault Refusal :=
  carried (fits payload) (live dt (fun t => t.upstream 0x41 h payload) s)

/-- NOTICE (R34). -/
def execNotice (dt : Nat) (h : Hdr) (payload : List Byte) (s : State) : Host.Outcome State Fault Refusal :=
  carried (fits payload) (live dt (fun t => t.upstream 0x42 h payload) s)

/-- ECHO_REQ (R36); it is answered whatever its payload (R195). -/
def execEchoReq (dt : Nat) (h : Hdr) (payload : List Byte) (s : State) : Host.Outcome State Fault Refusal :=
  carried (fits payload) (live dt (fun t => t.echoRequested h) s)

/-- ECHO_RPL (R16, R17). -/
def execEchoRpl (dt : Nat) (h : Hdr) (payload : List Byte) (s : State) : Host.Outcome State Fault Refusal :=
  carried (fits payload) (live dt (fun t => t.echoReplied h payload) s)

/-- A frame of unknown kind (R35). -/
def execUnknownKind (dt : Nat) (h : Hdr) (kind : Byte) (payload : List Byte) (s : State) :
    Host.Outcome State Fault Refusal :=
  carried (fits payload && decide (kind ∉ knownKinds)) (live dt (fun t => t.unknownFrame h kind payload) s)

end Sys2Proof.Machine
end

