-- ==== Sys2Proof/Machine/MgmtRequests.lean ====
section
/-! DEFINITION. The meanings of the requests of Chapter 10 but WRITE_TABLE, and of the Management Unit's own events. Each
request is received, matched, taken and forwarded or consumed (R32, R33, R176). -/

namespace Sys2Proof.Machine

/-- PING (R177). -/
def execPing (dt : Nat) (h : Hdr) (s : State) : Host.Outcome State Fault Refusal :=
  .next (live dt (State.request h [1] (fun t => t.takeRequest h.tag 1 (State.ping h.tag))) s)

/-- SET_ADDR (R182). -/
def execSetAddr (dt : Nat) (h : Hdr) (addr : Word16) (s : State) : Host.Outcome State Fault Refusal :=
  .next (live dt (State.request h ([2] ++ enc16 addr.toNat) (fun t => t.takeRequest h.tag 2 (State.setAddr h addr))) s)

/-- READ_TABLE (R179). -/
def execReadTable (dt : Nat) (h : Hdr) (space : Byte) (start : Word16) (count clear : Byte) (s : State) :
    Host.Outcome State Fault Refusal :=
  .next (live dt (State.request h ([3, space] ++ enc16 start.toNat ++ [count, clear])
    (fun t => t.takeRequest h.tag 3 (State.readTable h.tag space start count clear))) s)

/-- ACTIVATE_BANK (R60). -/
def execActivateBank (dt : Nat) (h : Hdr) (s : State) : Host.Outcome State Fault Refusal :=
  .next (live dt (State.request h [5] (fun t => t.takeRequest h.tag 5 (State.activate h.tag))) s)

/-- READ_STATUS (R177). -/
def execReadStatus (dt : Nat) (h : Hdr) (s : State) : Host.Outcome State Fault Refusal :=
  .next (live dt (State.request h [6] (fun t => t.takeRequest h.tag 6 (State.status h.tag))) s)

/-- RESYNC_CLOCK (R130, R131). -/
def execResyncClock (dt : Nat) (h : Hdr) (line : Byte) (position : Word16) (polarity : Byte) (s : State) :
    Host.Outcome State Fault Refusal :=
  .next (live dt (State.request h ([7, line] ++ enc16 position.toNat ++ [polarity])
    (fun t => t.takeRequest h.tag 7 (State.resyncClock h.tag line position polarity))) s)

/-- RECOVER_CIRCUIT (R148). -/
def execRecoverCircuit (dt : Nat) (h : Hdr) (circuit : Byte) (s : State) : Host.Outcome State Fault Refusal :=
  .next (live dt (State.request h [8, circuit] (fun t => t.takeRequest h.tag 8 (State.recover h.tag circuit))) s)

/-- FORCE_OUTPUT ON (R91, R92). -/
def execForceOn (dt : Nat) (h : Hdr) (output : Byte) (s : State) : Host.Outcome State Fault Refusal :=
  .next (live dt (State.request h [9, output, 1] (fun t => t.takeRequest h.tag 9 (State.forceOn h.tag output))) s)

/-- FORCE_OUTPUT OFF (R91, R92). -/
def execForceOff (dt : Nat) (h : Hdr) (output : Byte) (s : State) : Host.Outcome State Fault Refusal :=
  .next (live dt (State.request h [9, output, 2] (fun t => t.takeRequest h.tag 9 (State.forceOff h.tag output))) s)

/-- FORCE_OUTPUT RELEASE (R91, R92). -/
def execForceRelease (dt : Nat) (h : Hdr) (output : Byte) (s : State) : Host.Outcome State Fault Refusal :=
  .next (live dt (State.request h [9, output, 3] (fun t => t.takeRequest h.tag 9 (State.forceRelease h.tag output))) s)

/-- SAVE_IMAGE (R188). -/
def execSaveImage (dt : Nat) (h : Hdr) (s : State) : Host.Outcome State Fault Refusal :=
  .next (live dt (State.request h [10] (fun t => t.takeRequest h.tag 10 (State.saveImage h.tag))) s)

/-- SAVE_COMPLETE (R188). -/
def execSaveComplete (dt : Nat) (s : State) : Host.Outcome State Fault Refusal :=
  .next (live dt State.saveDone s)

/-- R192: a LINE_RESET whose receipt comes together with a loss of the UP signal that is taken first: its reception has
ended, the port is lost (R24), and the request is taken after it. -/
def State.requestAfterLoss (h : Hdr) (payload : List Byte) (owner : State → State) (s : State) : State :=
  if s.hears h.port then
    ((s.endReception h.port).signalLost .up).sorted .up h (State.matchRequest h payload owner)
  else s.signalLost .up

/-- LINE_RESET (R192). -/
def execLineReset (dt : Nat) (frame : LineResetFrame) (s : State) : Host.Outcome State Fault Refusal :=
  .next (live dt ((if frame.lossFirst then State.requestAfterLoss else State.request) frame.hdr [11]
    (fun t => t.takeRequest frame.hdr.tag 11 (State.askLineReset frame.hdr.tag))) s)

/-- A MGMT_REQ that names no request or does not hold its arguments (R176). -/
def execUnknownRequest (dt : Nat) (h : Hdr) (payload : List Byte) (s : State) : Host.Outcome State Fault Refusal :=
  carried (fits payload && !holdsRequest payload)
    (live dt (State.request h payload (State.unknownRequest h.tag payload)) s)

/-- R183: the unassigned timer ends and runs again. -/
def State.unassignedEnds (s : State) : State :=
  match s.mu.unassignedEnd with
  | some e =>
    if e ≤ s.now then
      let t := { s with mu := { s.mu with unassignedEnd := some (e + Config.unassignedUs) } }
      if s.line.up.link = .active then t.raise .mgmt 3 (enc8 (hopCode s.line.hop)) else t
    else s
  | none => s

/-- UNASSIGNED_TIMER_EXPIRY (R183). -/
def execUnassignedTimerExpiry (dt : Nat) (s : State) : Host.Outcome State Fault Refusal :=
  .next (live dt State.unassignedEnds s)

end Sys2Proof.Machine
end

