-- ==== Sys2Proof/Machine/ResetEvents.lean ====
section
/-! DEFINITION. The meanings of the resets and of the loss of the backup supply (R190, R191). -/

namespace Sys2Proof.Machine

/-- RESET_HELD (R191). -/
def execResetHeld (dt : Nat) (cause : ResetCause) (s : State) : Host.Outcome State Fault Refusal :=
  .next ((s.elapse dt).hold cause)

/-- FULL_RESET: the release of reset (R191). -/
def execFullReset (dt : Nat) (levels : ResetLevels) (sweepDown : Byte) (s : State) : Host.Outcome State Fault Refusal :=
  .next ((s.elapse dt).release levels.holdDown sweepDown levels.supply)

/-- BACKUP_SUPPLY_LOSS (R190). -/
def execBackupSupplyLoss (dt : Nat) (s : State) : Host.Outcome State Fault Refusal :=
  .next (s.elapse dt).backupLost

end Sys2Proof.Machine
end

