-- ==== Sys2Proof/Machine/SoundEvents.lean ====
section
/-! DEFINITION. The meanings of the events of claims, tones and pages (Chapters 5 and 6). -/

namespace Sys2Proof.Machine

/-- R83: the BELL claim of an output has reached its end. -/
def State.bellExpired (s : State) (o : Output) : Bool :=
  (s.out o).claims.any (fun c => decide (c.source = .bell) && s.expired c.ends)

/-- BELL_CLAIM_EXPIRY (R83). -/
def execBellClaimExpiry (dt : Nat) (o : Fin 24) (s : State) : Host.Outcome State Fault Refusal :=
  .next (live dt (fun t => if t.bellExpired o then rechooseAll [o] (t.dropClaim .bell o) else t) s)

/-- TONE_PHASE_END (R94). -/
def execTonePhaseEnd (dt : Nat) (w : TonePlayer) (s : State) : Host.Outcome State Fault Refusal :=
  .next (live dt (fun t =>
    match w with
    | .output o => t.outputPhaseEnd o
    | .chime r => t.chimePhaseEnd r) s)

/-- R103: the chime of a call has been played. -/
def State.chimeEnds (s : State) (r : Fin 8) : State :=
  match s.call r with
  | some c =>
    if c.state = .chime ∧ s.expired c.chimeEnd then
      s.setCall r (some { c with state := .prefill, fifo := [], expected := none, chimeEnd := none, chimePos := none,
                                 silenceEnd := some (s.now + Config.silenceUs) })
    else s
  | none => s

/-- CHIME_END (R103). -/
def execChimeEnd (dt : Nat) (r : Fin 8) (s : State) : Host.Outcome State Fault Refusal :=
  .next (live dt (fun t => t.chimeEnds r) s)

/-- R107: the frame clock. -/
def State.frameClock (s : State) : State :=
  if s.pe.nextTick ≤ s.now then
    { s with pe := { s.pe with nextTick := s.pe.nextTick + Config.frameClockUs } }.frameTick
  else s

/-- FRAME_CLOCK_TICK (R107 to R109, R111). -/
def execFrameClockTick (dt : Nat) (s : State) : Host.Outcome State Fault Refusal :=
  .next (live dt State.frameClock s)

/-- R112: the silence timer of a call ends. -/
def State.silenceEnds (s : State) (r : Fin 8) : State :=
  match s.call r with
  | some c =>
    if s.expired c.silenceEnd then ((s.closeCall r).count .timeout).raise .page 3 (enc8 c.channel) else s
  | none => s

/-- SILENCE_TIMER_EXPIRY (R112). -/
def execSilenceTimerExpiry (dt : Nat) (r : Fin 8) (s : State) : Host.Outcome State Fault Refusal :=
  .next (live dt (fun t => t.silenceEnds r) s)

end Sys2Proof.Machine
end

