-- ==== Sys2Proof/Machine/TableWrites.lean ====
section
/-! DEFINITION. The meanings of WRITE_TABLE (R180), one for each space of the table of commands. -/

namespace Sys2Proof.Machine

/-- R196: the payload of a WRITE_TABLE. -/
def writePayload (space : Byte) (start : Word16) (count : Byte) (data : List Byte) : List Byte :=
  [4, space] ++ enc16 start.toNat ++ [count] ++ data

/-- WRITE_TABLE of a writable space, dt µs after the command before: received, matched, taken and forwarded or consumed. -/
def State.writeRequest {α : Type} (dt : Nat) (h : Hdr) (space : Byte) (sp : Space) (dec : Nat → List Byte → Option α)
    (owner : State → Option Status) (start : Word16) (count : Byte) (data : List Byte)
    (change : List (Option α) → State → State) (s : State) : Host.Outcome State Fault Refusal :=
  carried (fits (writePayload space start count data))
    (live dt (State.request h (writePayload space start count data)
      (fun t => t.takeRequest h.tag 4 (fun u => u.writeTable h.tag sp dec (owner u) start count data change))) s)

/-- WRITE_TABLE to SCHED_A or SCHED_B (R58, R59). -/
def execWriteSched (dt : Nat) (h : Hdr) (bank : Bank) (start : Word16) (count : Byte) (data : List Byte) (s : State) :
    Host.Outcome State Fault Refusal :=
  s.writeRequest dt h (BitVec.ofNat 8 (bankCode bank)) (.sched bank) (fun _ => decSched) (fun t => t.schedRefusal bank)
    start count data (State.changeSched bank start.toNat)

/-- WRITE_TABLE to CALENDAR (R62). -/
def execWriteCalendar (dt : Nat) (h : Hdr) (start : Word16) (count : Byte) (data : List Byte) (s : State) :
    Host.Outcome State Fault Refusal :=
  s.writeRequest dt h 2 .calendar (fun _ => decCalendar) (fun _ => none) start count data (State.changeCalendar start.toNat)

/-- WRITE_TABLE to WEEKPLAN (R63). -/
def execWriteWeekplan (dt : Nat) (h : Hdr) (start : Word16) (count : Byte) (data : List Byte) (s : State) :
    Host.Outcome State Fault Refusal :=
  s.writeRequest dt h 3 .weekplan (fun _ => decWeek) (fun _ => none) start count data (State.changeWeek start.toNat)

/-- WRITE_TABLE to WINDOWS (R43). -/
def execWriteWindows (dt : Nat) (h : Hdr) (start : Word16) (count : Byte) (data : List Byte) (s : State) :
    Host.Outcome State Fault Refusal :=
  s.writeRequest dt h 4 .windows (fun _ => decWindow) (fun _ => none) start count data (State.changeWindows start.toNat)

/-- WRITE_TABLE to ZONEATTR (R45). -/
def execWriteZoneattr (dt : Nat) (h : Hdr) (start : Word16) (count : Byte) (data : List Byte) (s : State) :
    Host.Outcome State Fault Refusal :=
  s.writeRequest dt h 5 .zoneattr decAttr (fun _ => none) start count data (State.changeAttrs start.toNat)

/-- WRITE_TABLE to TONES (R93). -/
def execWriteTones (dt : Nat) (h : Hdr) (start : Word16) (count : Byte) (data : List Byte) (s : State) :
    Host.Outcome State Fault Refusal :=
  s.writeRequest dt h 6 .tones (fun _ => decTone) (fun _ => none) start count data (State.changeTones start.toNat)

/-- WRITE_TABLE to CLOCKCFG (R118, R132, R133). -/
def execWriteClockcfg (dt : Nat) (h : Hdr) (start : Word16) (count : Byte) (data : List Byte) (s : State) :
    Host.Outcome State Fault Refusal :=
  s.writeRequest dt h 7 .clockcfg (fun _ => decClock) (fun _ => none) start count data (State.changeClocks start.toNat)

/-- WRITE_TABLE to SUPCFG (R140, R150). -/
def execWriteSupcfg (dt : Nat) (h : Hdr) (start : Word16) (count : Byte) (data : List Byte) (s : State) :
    Host.Outcome State Fault Refusal :=
  s.writeRequest dt h 8 .supcfg decSup (fun _ => none) start count data (State.changeSups start.toNat)

/-- WRITE_TABLE to DRILLPROG (R159). -/
def execWriteDrillprog (dt : Nat) (h : Hdr) (start : Word16) (count : Byte) (data : List Byte) (s : State) :
    Host.Outcome State Fault Refusal :=
  s.writeRequest dt h 9 .drillprog (fun _ => decDrill) (fun _ => none) start count data (State.changeDrills start.toNat)

/-- WRITE_TABLE to NODECFG (R181). -/
def execWriteNodecfg (dt : Nat) (h : Hdr) (start : Word16) (count : Byte) (data : List Byte) (s : State) :
    Host.Outcome State Fault Refusal :=
  s.writeRequest dt h 10 .nodecfg (fun _ => decNode) (fun _ => none) start count data (State.changeNode start.toNat)

/-- WRITE_TABLE naming an unknown or a read-only space (R180). -/
def execWriteTableBadSpace (dt : Nat) (h : Hdr) (space : Byte) (start : Word16) (count : Byte) (data : List Byte)
    (s : State) : Host.Outcome State Fault Refusal :=
  carried (fits (writePayload space start count data) && decide (11 ≤ space.toNat))
    (live dt (State.request h (writePayload space start count data)
      (fun t => t.takeRequest h.tag 4 (fun u => u.reply h.tag 4 .badSpace []))) s)

end Sys2Proof.Machine
end

