-- ==== Sys2Proof/Machine/TimeEvents.lean ====
section
/-! DEFINITION. The meanings of the Timebase's own events (Chapter 1). -/

namespace Sys2Proof.Machine

/-- LOCAL_TICK (R3 to R5); the ticks end while the node is held in reset. -/
def execLocalTick (fdcFirst : Bool) (s : State) : Host.Outcome State Fault Refusal :=
  .next (if s.held then s else s.localTickEvent fdcFirst)

/-- R14: the TIME timeout ends. -/
def State.timeoutEnds (s : State) : State :=
  if s.expired s.tb.timeoutEnd then
    let t := { s with tb := { s.tb with timeoutEnd := none } }
    if s.tb.quality = .synced then t.setQuality .holdover else t
  else s

/-- TIME_TIMEOUT_EXPIRY (R14). -/
def execTimeTimeoutExpiry (dt : Nat) (s : State) : Host.Outcome State Fault Refusal :=
  .next (live dt State.timeoutEnds s)

/-- R15: an echo period ends and the next begins. -/
def State.echoPeriodEnds (s : State) : State :=
  match s.tb.echoPeriod with
  | some e =>
    if e ≤ s.now then { s with tb := { s.tb with echoPeriod := some (e + Config.echoPeriodUs) } }.echoRequest else s
  | none => s

/-- ECHO_PERIOD_EXPIRY (R15). -/
def execEchoPeriodExpiry (dt : Nat) (s : State) : Host.Outcome State Fault Refusal :=
  .next (live dt State.echoPeriodEnds s)

/-- R16: the reply timer ends in AWAITING. -/
def State.echoTimesOut (s : State) : State :=
  match s.tb.echo with
  | .awaiting _ e => if e ≤ s.now then (s.count .echoTimeout).setEcho .idle else s
  | .idle => s
  | .queued => s

/-- ECHO_REPLY_TIMEOUT (R16). -/
def execEchoReplyTimeout (dt : Nat) (s : State) : Host.Outcome State Fault Refusal :=
  .next (live dt State.echoTimesOut s)

/-- BACKUP_COUNTER_SECOND (R19): with main power or without it, held in reset or not. -/
def execBackupCounterSecond (dt : Nat) (s : State) : Host.Outcome State Fault Refusal :=
  .next (s.elapse dt).backupSecond

end Sys2Proof.Machine
end

