-- ==== Sys2Proof/Machine/Dispatch.lean ====
section
/-! DEFINITION. The dispatch of commands: one arm per constructor of Instr, one meaning per arm. -/

namespace Sys2Proof.Machine

/-- The effect of a command on everything but the queue of waiting commands. -/
def exec (i : Instr) (s : State) : Host.Outcome State Fault Refusal :=
  match i with
  | .lineSignalPresent dt p => Sys2Proof.Machine.execLineSignalPresent dt p s
  | .debounceTimerExpiry dt p => Sys2Proof.Machine.execDebounceTimerExpiry dt p s
  | .trainingCodeGroup dt p => Sys2Proof.Machine.execTrainingCodeGroup dt p s
  | .trainingTimerExpiry dt p => Sys2Proof.Machine.execTrainingTimerExpiry dt p s
  | .lineSignalLostInAttach dt p => Sys2Proof.Machine.execLineSignalLostInAttach dt p s
  | .lineSignalLost dt p => Sys2Proof.Machine.execLineSignalLost dt p s
  | .codeViolationInFrame dt p => Sys2Proof.Machine.execCodeViolationInFrame dt p s
  | .frameOverlength dt p => Sys2Proof.Machine.execFrameOverlength dt p s
  | .frameCheckFailed dt p bytes => Sys2Proof.Machine.execFrameCheckFailed dt p bytes s
  | .time dt h payload lag fdcFirst => Sys2Proof.Machine.execTime dt h payload lag fdcFirst s
  | .audio dt h payload => Sys2Proof.Machine.execAudio dt h payload s
  | .pageOpen dt h payload => Sys2Proof.Machine.execPageOpen dt h payload s
  | .pageClose dt h payload => Sys2Proof.Machine.execPageClose dt h payload s
  | .bellNow dt h payload => Sys2Proof.Machine.execBellNow dt h payload s
  | .select dt h payload => Sys2Proof.Machine.execSelect dt h payload s
  | .drillStart dt h rest => Sys2Proof.Machine.execDrillStart dt h rest s
  | .drillAbort dt h rest => Sys2Proof.Machine.execDrillAbort dt h rest s
  | .drillAllClear dt h rest => Sys2Proof.Machine.execDrillAllClear dt h rest s
  | .mgmtRpl dt h payload => Sys2Proof.Machine.execMgmtRpl dt h payload s
  | .notice dt h payload => Sys2Proof.Machine.execNotice dt h payload s
  | .echoReq dt h payload => Sys2Proof.Machine.execEchoReq dt h payload s
  | .echoRpl dt h payload => Sys2Proof.Machine.execEchoRpl dt h payload s
  | .unknownKind dt h kind payload => Sys2Proof.Machine.execUnknownKind dt h kind payload s
  | .transmitStart dt p => Sys2Proof.Machine.execTransmitStart dt p s
  | .frameTransmitEnd dt p => Sys2Proof.Machine.execFrameTransmitEnd dt p s
  | .localTick fdcFirst => Sys2Proof.Machine.execLocalTick fdcFirst s
  | .timeTimeoutExpiry dt => Sys2Proof.Machine.execTimeTimeoutExpiry dt s
  | .echoPeriodExpiry dt => Sys2Proof.Machine.execEchoPeriodExpiry dt s
  | .echoReplyTimeout dt => Sys2Proof.Machine.execEchoReplyTimeout dt s
  | .backupCounterSecond dt => Sys2Proof.Machine.execBackupCounterSecond dt s
  | .bellClaimExpiry dt o => Sys2Proof.Machine.execBellClaimExpiry dt o s
  | .tonePhaseEnd dt w => Sys2Proof.Machine.execTonePhaseEnd dt w s
  | .chimeEnd dt r => Sys2Proof.Machine.execChimeEnd dt r s
  | .frameClockTick dt => Sys2Proof.Machine.execFrameClockTick dt s
  | .silenceTimerExpiry dt r => Sys2Proof.Machine.execSilenceTimerExpiry dt r s
  | .pulseMidCheck dt k reading => Sys2Proof.Machine.execPulseMidCheck dt k reading s
  | .pulseEnd dt k => Sys2Proof.Machine.execPulseEnd dt k s
  | .gapWaitEnd dt k => Sys2Proof.Machine.execGapWaitEnd dt k s
  | .dwellEnd dt reading => Sys2Proof.Machine.execDwellEnd dt reading s
  | .fireCheck dt reading => Sys2Proof.Machine.execFireCheck dt reading s
  | .preAlertEnd dt => Sys2Proof.Machine.execPreAlertEnd dt s
  | .evacuateEnd dt => Sys2Proof.Machine.execEvacuateEnd dt s
  | .holdLimitExpiry dt => Sys2Proof.Machine.execHoldLimitExpiry dt s
  | .allClearPhaseEnd dt => Sys2Proof.Machine.execAllClearPhaseEnd dt s
  | .drillProgress dt => Sys2Proof.Machine.execDrillProgress dt s
  | .holdKeyPress dt => Sys2Proof.Machine.execHoldKeyPress dt s
  | .sweepPress dt n => Sys2Proof.Machine.execSweepPress dt n s
  | .unassignedTimerExpiry dt => Sys2Proof.Machine.execUnassignedTimerExpiry dt s
  | .ping dt h => Sys2Proof.Machine.execPing dt h s
  | .setAddr dt h addr => Sys2Proof.Machine.execSetAddr dt h addr s
  | .readTable dt h space start count clear => Sys2Proof.Machine.execReadTable dt h space start count clear s
  | .writeSched dt h bank start count data => Sys2Proof.Machine.execWriteSched dt h bank start count data s
  | .writeCalendar dt h start count data => Sys2Proof.Machine.execWriteCalendar dt h start count data s
  | .writeWeekplan dt h start count data => Sys2Proof.Machine.execWriteWeekplan dt h start count data s
  | .writeWindows dt h start count data => Sys2Proof.Machine.execWriteWindows dt h start count data s
  | .writeZoneattr dt h start count data => Sys2Proof.Machine.execWriteZoneattr dt h start count data s
  | .writeTones dt h start count data => Sys2Proof.Machine.execWriteTones dt h start count data s
  | .writeClockcfg dt h start count data => Sys2Proof.Machine.execWriteClockcfg dt h start count data s
  | .writeSupcfg dt h start count data => Sys2Proof.Machine.execWriteSupcfg dt h start count data s
  | .writeDrillprog dt h start count data => Sys2Proof.Machine.execWriteDrillprog dt h start count data s
  | .writeNodecfg dt h start count data => Sys2Proof.Machine.execWriteNodecfg dt h start count data s
  | .activateBank dt h => Sys2Proof.Machine.execActivateBank dt h s
  | .readStatus dt h => Sys2Proof.Machine.execReadStatus dt h s
  | .resyncClock dt h line position polarity => Sys2Proof.Machine.execResyncClock dt h line position polarity s
  | .recoverCircuit dt h circuit => Sys2Proof.Machine.execRecoverCircuit dt h circuit s
  | .forceOn dt h output => Sys2Proof.Machine.execForceOn dt h output s
  | .forceOff dt h output => Sys2Proof.Machine.execForceOff dt h output s
  | .forceRelease dt h output => Sys2Proof.Machine.execForceRelease dt h output s
  | .saveImage dt h => Sys2Proof.Machine.execSaveImage dt h s
  | .saveComplete dt => Sys2Proof.Machine.execSaveComplete dt s
  | .lineReset dt frame => Sys2Proof.Machine.execLineReset dt frame s
  | .unknownRequest dt h payload => Sys2Proof.Machine.execUnknownRequest dt h payload s
  | .resetHeld dt cause => Sys2Proof.Machine.execResetHeld dt cause s
  | .fullReset dt levels sweepDown => Sys2Proof.Machine.execFullReset dt levels sweepDown s
  | .frameStartDelimiter dt p => Sys2Proof.Machine.execFrameStartDelimiter dt p s
  | .backupSupplyLoss dt => Sys2Proof.Machine.execBackupSupplyLoss dt s
  | .drillBadCommand dt h payload => Sys2Proof.Machine.execDrillBadCommand dt h payload s
  | .writeTableBadSpace dt h space start count data => Sys2Proof.Machine.execWriteTableBadSpace dt h space start count data s

end Sys2Proof.Machine
end

