-- ==== Sys2Proof/WellFormed.lean ====
section
/-! DEFINITION. The commands that can arrive: a frame carries at most 240 payload bytes (R194), and a command whose row is told
from another by its bytes carries bytes of its own row. -/

namespace Sys2Proof

open Machine (fits failsCheck badDrillCommand knownKinds holdsRequest)

/-- The record bytes of a WRITE_TABLE fit behind its five bytes of code and arguments (R197). -/
def recordsFit (data : List Byte) : Bool := decide (data.length ≤ 235)

/-- The command is well-formed. -/
def Instr.wellFormed : Instr → Bool
  | .frameCheckFailed _ _ bytes => failsCheck bytes
  | .time _ _ payload _ _ => fits payload
  | .audio _ _ payload => fits payload
  | .pageOpen _ _ payload => fits payload
  | .pageClose _ _ payload => fits payload
  | .bellNow _ _ payload => fits payload
  | .select _ _ payload => fits payload
  | .drillStart _ _ rest => fits (1 :: rest)
  | .drillAbort _ _ rest => fits (2 :: rest)
  | .drillAllClear _ _ rest => fits (3 :: rest)
  | .drillBadCommand _ _ payload => fits payload && badDrillCommand payload
  | .mgmtRpl _ _ payload => fits payload
  | .notice _ _ payload => fits payload
  | .echoReq _ _ payload => fits payload
  | .echoRpl _ _ payload => fits payload
  | .unknownKind _ _ kind payload => fits payload && decide (kind ∉ knownKinds)
  | .writeSched _ _ _ _ _ data => recordsFit data
  | .writeCalendar _ _ _ _ data => recordsFit data
  | .writeWeekplan _ _ _ _ data => recordsFit data
  | .writeWindows _ _ _ _ data => recordsFit data
  | .writeZoneattr _ _ _ _ data => recordsFit data
  | .writeTones _ _ _ _ data => recordsFit data
  | .writeClockcfg _ _ _ _ data => recordsFit data
  | .writeSupcfg _ _ _ _ data => recordsFit data
  | .writeDrillprog _ _ _ _ data => recordsFit data
  | .writeNodecfg _ _ _ _ data => recordsFit data
  | .writeTableBadSpace _ _ space _ _ data => recordsFit data && decide (11 ≤ space.toNat)
  | .unknownRequest _ _ payload => fits payload && !holdsRequest payload
  | .lineSignalPresent _ _ => true
  | .debounceTimerExpiry _ _ => true
  | .trainingCodeGroup _ _ => true
  | .trainingTimerExpiry _ _ => true
  | .lineSignalLostInAttach _ _ => true
  | .lineSignalLost _ _ => true
  | .codeViolationInFrame _ _ => true
  | .frameOverlength _ _ => true
  | .transmitStart _ _ => true
  | .frameTransmitEnd _ _ => true
  | .localTick _ => true
  | .timeTimeoutExpiry _ => true
  | .echoPeriodExpiry _ => true
  | .echoReplyTimeout _ => true
  | .backupCounterSecond _ => true
  | .bellClaimExpiry _ _ => true
  | .tonePhaseEnd _ _ => true
  | .chimeEnd _ _ => true
  | .frameClockTick _ => true
  | .silenceTimerExpiry _ _ => true
  | .pulseMidCheck _ _ _ => true
  | .pulseEnd _ _ => true
  | .gapWaitEnd _ _ => true
  | .dwellEnd _ _ => true
  | .fireCheck _ _ => true
  | .preAlertEnd _ => true
  | .evacuateEnd _ => true
  | .holdLimitExpiry _ => true
  | .allClearPhaseEnd _ => true
  | .drillProgress _ => true
  | .holdKeyPress _ => true
  | .sweepPress _ _ => true
  | .unassignedTimerExpiry _ => true
  | .ping _ _ => true
  | .setAddr _ _ _ => true
  | .readTable _ _ _ _ _ _ => true
  | .activateBank _ _ => true
  | .readStatus _ _ => true
  | .resyncClock _ _ _ _ _ => true
  | .recoverCircuit _ _ _ => true
  | .forceOn _ _ _ => true
  | .forceOff _ _ _ => true
  | .forceRelease _ _ _ => true
  | .saveImage _ _ => true
  | .saveComplete _ => true
  | .lineReset _ _ => true
  | .resetHeld _ _ => true
  | .fullReset _ _ _ => true
  | .frameStartDelimiter _ _ => true
  | .backupSupplyLoss _ => true

end Sys2Proof
end

