-- ==== Sys2Proof/Safety.lean ====
section
/-! DEFINITION. The terms in which claims are made: the parts of the state for frames, the conditions under which a frame is
taken, and the invariants. -/

namespace Sys2Proof.Machine

/-! ## Frames -/

/-- The parts of the state. -/
inductive Part where
  | now | held | mainPower | line | tb | zm | bs | za | pe | cld | csv | fdc | mu | rs | image | counters | draws | pending
deriving DecidableEq, Repr

/-- A part stands in t as it stands in s. -/
def State.samePart (s t : State) : Part → Prop
  | .now => t.now = s.now
  | .held => t.held = s.held
  | .mainPower => t.mainPower = s.mainPower
  | .line => t.line = s.line
  | .tb => t.tb = s.tb
  | .zm => t.zm = s.zm
  | .bs => t.bs = s.bs
  | .za => t.za = s.za
  | .pe => t.pe = s.pe
  | .cld => t.cld = s.cld
  | .csv => t.csv = s.csv
  | .fdc => t.fdc = s.fdc
  | .mu => t.mu = s.mu
  | .rs => t.rs = s.rs
  | .image => t.image = s.image
  | .counters => t.counters = s.counters
  | .draws => t.draws = s.draws
  | .pending => t.pending = s.pending

/-- Every part but those listed stands in t as it stands in s. -/
def State.keepsBut (s t : State) (parts : List Part) : Prop := ∀ p, p ∉ parts → s.samePart t p

/-! ## The arrival of a frame -/

/-- The node runs, the port is ACTIVE, and a frame is under reception there. -/
def State.canHear (s : State) (p : PortId) : Prop :=
  s.held = false ∧ (s.port p).link = .active ∧ (s.port p).rx.isSome = true

/-- The state in which an intact frame's owner takes it: dt µs later, the reception ended, the position learned. -/
def State.arrived (s : State) (dt : Nat) (h : Hdr) : State := ((s.elapse dt).endReception h.port).learnAt h

/-- A request reaches the Management Unit and its reply finds room. -/
def State.takesRequest (s : State) (dt : Nat) (h : Hdr) : Prop :=
  s.canHear .up ∧ h.port = .up ∧ (s.arrived dt h).selected h = true ∧ s.mu.resetPending = false ∧
    (s.arrived dt h).hasRoom .upNormal = true

/-- UP normal of t is that of s with one reply of this node more. -/
def State.replied (s t : State) (tag req : Byte) (st : Status) (results : List Byte) : Prop :=
  t.line.up.normal = s.line.up.normal ++ [⟨replyFrame tag req st results, none, .own⟩]

/-- The reply is the first of the frames that t's UP normal holds behind those of s. -/
def State.repliedFirst (s t : State) (tag req : Byte) (st : Status) (results : List Byte) : Prop :=
  ∃ more, t.line.up.normal = s.line.up.normal ++ ⟨replyFrame tag req st results, none, .own⟩ :: more

/-- UP normal of t is that of s with one notice of this node more. -/
def State.noticed (s t : State) (cls : NoticeClass) (code : Nat) (args : List Byte) : Prop :=
  t.line.up.normal = s.line.up.normal ++ [⟨ownFrame 0x42 0 (s.noticePayload cls code args), none, .own⟩]

/-! ## Bells -/

/-- R73: entry e has been rung, at the local time given: each output of its set holds the BELL claim, joined last, in place of
an earlier one, and no other output's claims have changed. -/
def State.rung (s t : State) (e : SchedEntry) (now : Nat) : Prop :=
  let set := (s.zm.resolveBell e.target (e.flags.getLsbD 0)).set
  let c : Claim := ⟨.bell, 5, .tone (s.za.tones.toList.getD e.pattern .factory), some (now + e.duration * 1000000)⟩
  (∀ o ∈ set, (t.out o).claims = (s.out o).claims.filter (fun d => decide (d.source ≠ .bell)) ++ [c]) ∧
    ∀ o, o ∉ set → (t.out o).claims = (s.out o).claims

/-- R72: a BELL entry of the plan of day that neither the fire state nor a drill suppresses. -/
def State.ringable (s : State) (e : SchedEntry) : Prop :=
  e.kind = .bell ∧ s.planIncludes e = true ∧ s.fireMute = false ∧ (s.drillMute && e.flags.getLsbD 1) = false

/-- No drill is armed, so that no time event starts one (R163). -/
def State.noneArmed (s : State) : Prop := ∀ d, s.fdc.drill = some d → d.phase ≠ .armed

/-! ## Clock lines -/

/-- R125, R126: the pulse that line k, as it stands in s, starts at the local time given. -/
def State.newPulse (s : State) (k : LineNo) (now : Nat) : Pulse :=
  let c := s.clockCfg k
  { polarity := match c.polarity, (s.retained k).polarity with
      | .polarized, .a => .b
      | .polarized, .b => .a
      | .same, x => x,
    start := now, due := now + c.width * 1000, midDue := now + c.width * 500,
    result := if (s.supCfg (circuitOfLine k)).enabled then .pending else .good,
    openLim := c.openLim, shortLim := c.shortLim }

/-- R123, R124: what line k is in t after an evaluation of the line that stands in s, of type MINUTE or HALF and with no pulse
in flight, at quality q, ms-of-day ms and local time now: the mode is that of the first condition that holds, ADVANCE starts
a pulse or waits for the end of the gap, and any other mode does neither. -/
def State.evaluated (s t : State) (k : LineNo) (q : Quality) (ms now : Nat) : Prop :=
  let c := s.clockCfg k
  let v := s.clockLine k
  let u := t.clockLine k
  let faulted := (s.circ (circuitOfLine k)).state = .fault
  let rests : ClockMode → Prop := fun m => u.mode = m ∧ u.pulse = none ∧ u.gapEnd = none
  u.lastEnd = v.lastEnd ∧ u.pending = v.pending ∧
  (q = .invalid → rests .noTime) ∧
  (q ≠ .invalid → (s.retained k).position = none → rests .unknownWait) ∧
  (q ≠ .invalid → (s.retained k).position ≠ none → faulted → rests .suspended) ∧
  ∀ i, q ≠ .invalid → (s.retained k).position = some i → ¬faulted →
    let d := distance c.type ms i
    (d = 0 → rests .inStep) ∧
    (d ≠ 0 → c.type.dial - c.window ≤ d → rests .hold) ∧
    (d ≠ 0 → d < c.type.dial - c.window → u.mode = .advance ∧
      ((∀ e, v.gapEnd = some e → e ≤ now) → (v.gapEnd = none → ∀ l, v.lastEnd = some l → l + c.gap * 1000 ≤ now) →
        u.pulse = some (s.newPulse k now) ∧ u.gapEnd = none) ∧
      (∀ e, v.gapEnd = some e → now < e → u.pulse = none ∧ u.gapEnd = some e) ∧
      ∀ l, v.gapEnd = none → v.lastEnd = some l → now < l + c.gap * 1000 →
        u.pulse = none ∧ u.gapEnd = some (l + c.gap * 1000))

/-! ## Drills -/

/-- The FDC claims of a phase that resolved the EVAC set in s (R79): each output of the set holds the claim of the class with
the pattern, and no other output holds an FDC claim. -/
def State.sounds (s t : State) (cls pattern : Nat) : Prop :=
  (∀ o ∈ s.zm.resolveEvac,
    (⟨.fdc, cls, .tone (s.za.tones.toList.getD pattern .factory), none⟩ : Claim) ∈ (t.out o).claims) ∧
    ∀ o, o ∉ s.zm.resolveEvac → ∀ c ∈ (t.out o).claims, c.source ≠ .fdc

/-- R166, R171: drill d of s has entered EVACUATE in t at the local time given. -/
def State.evacuating (s t : State) (d : Drill) (now : Nat) : Prop :=
  (∃ r, t.fdc = { s.fdc with
      roll := some r,
      drill := some { d with
        phase := .evacuate, deadline := some (now + d.prog.evacTime * 1000000), evacSet := some s.zm.resolveEvac } } ∧
    r.kind = .drill ∧ r.id = d.id ∧ r.program = some d.program ∧ r.isOpen = true ∧ r.sweepMask = d.prog.sweepMask ∧
    r.openedAt = now ∧ r.lastPhase = 3 ∧ (∀ i : Fin 8, r.clear[i] = none) ∧
    r.start = if t.tb.quality = .invalid then none else some (t.tb.day, t.tb.ms)) ∧
  s.sounds t 0 d.prog.evacPattern

/-- R165: drill d of s, its run beginning at the local time given, has entered its first phase in t. -/
def State.drillStarted (s t : State) (d : Drill) (now : Nat) : Prop :=
  let run := { d with runStart := now, progress := 0, holdLimit := false }
  t.counter .drillRuns = min 65535 (s.counter .drillRuns + 1) ∧
  (0 < d.prog.preTime →
    t.fdc = { s.fdc with drill := some { run with
      phase := .preAlert, deadline := some (now + d.prog.preTime * 1000000), evacSet := some s.zm.resolveEvac } } ∧
    s.sounds t 1 d.prog.prePattern) ∧
  (d.prog.preTime = 0 → s.evacuating t run now)

/-! ## Resets -/

/-- R192 with R21, R42, R78, R97, R117, R138, R153 and R175: t is what the line reset, taken in v, leaves. A line with a pulse
in flight keeps it; the evaluation of another can start a pulse and a correction record of its own. Every counter is 0 but the
two that the scan's new visit and a pulse so started can count. -/
def State.afterLineReset (v t : State) : Prop :=
  t.now = v.now ∧ t.held = v.held ∧ t.mainPower = v.mainPower ∧
  t.mu = { v.mu with resetPending := false } ∧
  t.line.up.express = [] ∧ t.line.down.express = [] ∧ t.line.down.normal = [] ∧
  (v.mu.node.enables.getLsbD 7 = true →
    ∃ more, t.line.up.normal = ⟨ownFrame 0x42 0 (v.noticePayload .mgmt 1 [1]), none, .own⟩ :: more) ∧
  (∀ p, (t.port p).link = (v.port p).link ∧ (t.port p).rx = (v.port p).rx ∧ (t.port p).tx = (v.port p).tx) ∧
  t.line.hop = v.line.hop ∧
  t.tb = { v.tb with
    timeoutEnd := none, echo := .idle, quality := if v.tb.quality = .synced then .holdover else v.tb.quality } ∧
  t.zm = { v.zm with sel := Vector.replicate 24 false } ∧ t.bs = { v.bs with pendingSwap := false } ∧
  (∀ o, t.out o = OutputState.reset) ∧ t.za.tones = v.za.tones ∧ (∀ r, t.call r = none) ∧
  (∀ c, t.circ c = CircRecord.fresh) ∧ t.csv.cfg = v.csv.cfg ∧
  t.fdc = { v.fdc with
    fire := .quiet, count := 0, troubleRun := 0, trouble := false, fireSet := none, drill := none, roll := none } ∧
  t.rs = v.rs ∧ t.image = v.image ∧ t.cld.cfg = v.cld.cfg ∧
  (∀ k, (t.clockLine k).lastEnd = (v.clockLine k).lastEnd ∧ (t.clockLine k).pending = (v.clockLine k).pending ∧
    ((v.clockLine k).pulse.isSome = true → t.clockLine k = { v.clockLine k with correction := none }) ∧
    ((t.clockLine k).correction = none ∨ (t.clockLine k).correction = some 0)) ∧
  ∀ c : Counter, c ≠ .skipped → c ≠ .readingDiscarded → t.counter c = 0

/-- R189: every record of a space of the image passes its owner's checks of a write (as the model reads them, assumption
log 30). -/
def recordsPass {α : Type} {n : Nat} (dec : Nat → List Byte → Option α) (enc : α → List Byte) (v : Vector α n) : Prop :=
  ∀ i : Fin n, dec i.val (enc v[i]) = some v[i]

/-- R189, R196: a part of the image that passes is loaded, and one that does not takes its factory value and is named by its
bit of the mask. -/
def partLoaded {α : Type} (mask : Word16) (bit : Nat) (pass : Prop) (loaded img factory : α) : Prop :=
  (pass → loaded = img ∧ mask.getLsbD bit = false) ∧ (¬pass → loaded = factory ∧ mask.getLsbD bit = true)

/-! ## Invariants -/

/-- R37: no queue holds more than its capacity. -/
def State.queuesBounded (s : State) : Prop := ∀ q : QueueId, (s.queue q).length ≤ q.capacity

/-- Conventions: every counter lies in 0..65,535. -/
def State.countersBounded (s : State) : Prop := ∀ c : Counter, s.counter c ≤ 65535

/-- Chapter 1: the ranges of the Timebase, what INVALID holds at 0 (R1), the timeout that runs in SYNCED only (R14), and the
ranges of what a full reset loads into it. -/
structure State.TimeLegal (s : State) : Prop where
  ms        : s.tb.ms < 86400000
  us        : s.tb.us < 1000
  slewCount : s.tb.slewCount < 50
  linkDelay : s.tb.linkDelay ≤ 50000
  default   : s.mu.node.linkDelay ≤ 50000
  second    : s.rs.second ≤ 86399
  heldAtZero : s.tb.quality = .invalid → s.tb.day = 0 ∧ s.tb.ms = 0 ∧ s.tb.us = 0
  timeout   : s.tb.timeoutEnd.isSome = true → s.tb.quality = .synced

/-- R84: the winner of every output is the one the choice of winner gives with the claims, the force state and the mutes as
they stand. -/
def State.winnersChosen (s : State) : Prop :=
  ∀ o : Output, (s.out o).winner = (s.choice o).map (·.source)

/-- R81: an output holds at most one claim of a source. -/
def State.claimsDistinct (s : State) : Prop :=
  ∀ o : Output, (s.out o).claims.Pairwise (fun a b => a.source ≠ b.source)

/-- R84, R89: an isolated output and an output without a winner play nothing. -/
def State.silencesKept (s : State) : Prop :=
  ∀ o : Output, s.isolated o = true ∨ (s.out o).winner = none → (s.out o).play = .silent

/-- R98, R106: at most one call on a channel, and at most eight frames in a FIFO. -/
def State.callsLegal (s : State) : Prop :=
  (∀ r c, s.call r = some c → c.fifo.length ≤ 8) ∧
    ∀ r k c d, s.call r = some c → s.call k = some d → c.channel = d.channel → r = k

end Sys2Proof.Machine
end

