-- ==== Sys2Proof/Certificates/Slice0/Obligations.lean ====
section
/-! DEFINITION. The statements for the provers. Frames are said with keepsBut: every part of the state that is not listed
stands as it stood. -/

open Sys2Proof Sys2Proof.Machine

/-! ## The machine as a whole -/

/-- The queue discipline: the front command is run by exec on the state with the queue's rest, and an empty queue idles
(the model's choice, assumption log 7). -/
def Obligations.FrontCommandRuns : Prop :=
  (∀ (c : Instr) (s : State) (q : List Instr), s.pending = c :: q → step s = exec c (s.withPending q)) ∧
    ∀ s : State, s.pending = [] → step s = .next s

/-- A command that can arrive completes and leaves the queue of waiting commands, the model's own (assumption log 7), as it
is; one that cannot arrive is refused by name (the model's choice, assumption log 23). -/
def Obligations.WellFormedCommandsComplete : Prop :=
  ∀ (c : Instr) (s : State),
    (c.wellFormed = true → ∃ t, exec c s = .next t ∧ t.pending = s.pending) ∧
      (c.wellFormed = false → exec c s = .refused .illFormed)

/-- R191: while the node is held in reset nothing is driven, received or in flight. That every field then keeps its value, so
that only the resets and the two events of the backup supply change anything, is the model's choice (assumption log 29), and
so is the local time that passes (the model's own field, assumption log 1). -/
def Obligations.HeldNodeStandsStill : Prop :=
  ∀ (c : Instr) (s t : State), s.held = true → (∀ dt w, c ≠ .resetHeld dt w) → (∀ dt k m, c ≠ .fullReset dt k m) →
    (∀ dt, c ≠ .backupCounterSecond dt) → (∀ dt, c ≠ .backupSupplyLoss dt) →
    exec c s = .next t → s.keepsBut t [.now]

/-! ## The line (Chapter 2) -/

/-- R22, R23: the moves among ABSENT, DEBOUNCE and TRAINING, and the training timer's end, which makes the port ACTIVE and at
UP starts the echo period and its first request. -/
def Obligations.PortAttaches : Prop :=
  ∀ (s : State) (dt : Nat) (p : PortId), s.held = false →
    ((s.port p).link = .absent →
      exec (.lineSignalPresent dt p) s = .next ((s.elapse dt).setPort p
        { s.port p with link := .debounce, debounceEnd := some (s.now + dt + 60000) })) ∧
    (∀ e, (s.port p).link = .debounce → (s.port p).debounceEnd = some e → e ≤ s.now + dt →
      exec (.debounceTimerExpiry dt p) s = .next ((s.elapse dt).setPort p
        { s.port p with link := .training, debounceEnd := none, trainingEnd := some (s.now + dt + 300000) })) ∧
    ((s.port p).link = .training →
      exec (.trainingCodeGroup dt p) s = .next ((s.elapse dt).setPort p
        { s.port p with trainingEnd := some (s.now + dt + 300000) })) ∧
    ((s.port p).link = .debounce ∨ (s.port p).link = .training →
      exec (.lineSignalLostInAttach dt p) s = .next ((s.elapse dt).setPort p
        { s.port p with link := .absent, debounceEnd := none, trainingEnd := none })) ∧
    (∀ e, (s.port p).link = .training → (s.port p).trainingEnd = some e → e ≤ s.now + dt →
      ∃ t, exec (.trainingTimerExpiry dt p) s = .next t ∧
        (t.port p).link = .active ∧ (t.port p).trainingEnd = none ∧
        (p = .up → t.tb.echoPeriod = some (s.now + dt + 16000000)) ∧
        (p = .up → s.tb.echo = .idle → s.line.up.express.length < 4 →
          t.tb.echo = .queued ∧ t.tb.echoTag = s.tb.echoTag + 1 ∧
          t.line.up.express = s.line.up.express ++ [⟨echoReqFrame (s.tb.echoTag + 1), none, .echoReq⟩]) ∧
        (p = .down → t.tb = (s.elapse dt).tb) ∧
        (s.mu.node.enables.getLsbD 0 = true → s.line.up.normal.length < 32 →
          (s.elapse dt).noticed t .line (match p with | .up => 1 | .down => 2)
            (enc16 (s.counter (lossCounter p)))) ∧
        (s.elapse dt).keepsBut t [.line, .tb, .counters])

/-- R24: an ACTIVE port that loses its signal is ABSENT, its queues and its reception are gone, and a frame being sent goes
on. Loss of UP closes every call and ends the echo measurement, and where it flushes the LINE_RESET reply the line reset is
taken (R192); loss of DOWN raises LINE_END, is counted, and leaves the UP port but for that notice, and the hop position. -/
def Obligations.LinkLost : Prop :=
  ∀ (s : State) (dt : Nat), s.held = false →
    (s.line.up.link = .active → (∀ i ∈ s.line.up.express ++ s.line.up.normal, i.origin ≠ .resetReply) →
      ∃ t, exec (.lineSignalLost dt .up) s = .next t ∧
        t.line.up = { s.line.up with link := .absent, rx := none, express := [], normal := [] } ∧
        t.line.down = s.line.down ∧ t.line.hop = s.line.hop ∧ (∀ r, t.call r = none) ∧
        t.tb = { (s.elapse dt).tb with echo := .idle, echoPeriod := none } ∧
        (s.elapse dt).keepsBut t [.line, .tb, .pe, .za, .csv, .counters, .draws]) ∧
    (s.line.up.link = .active → (∃ i ∈ s.line.up.express ++ s.line.up.normal, i.origin = .resetReply) →
      ∃ t, exec (.lineSignalLost dt .up) s = .next t ∧
        { s.elapse dt with
          line := { s.line with up := { s.line.up with link := .absent, rx := none } },
          tb := { (s.elapse dt).tb with echoPeriod := none } }.afterLineReset t) ∧
    (s.line.down.link = .active →
      ∃ t, exec (.lineSignalLost dt .down) s = .next t ∧
        t.line.down = { s.line.down with link := .absent, rx := none, express := [], normal := [] } ∧
        t.line.up = { s.line.up with normal := t.line.up.normal } ∧ t.line.hop = s.line.hop ∧
        (s.mu.node.enables.getLsbD 0 = true → s.line.up.normal.length < 32 →
          (s.elapse dt).noticed t .line 3 (enc16 (s.line.down.express.length + s.line.down.normal.length))) ∧
        (s.mu.node.enables.getLsbD 0 = false ∨ 32 ≤ s.line.up.normal.length →
          t.line.up.normal = s.line.up.normal) ∧
        t.counter .downLoss = min 65535 ((s.elapse dt).counter .downLoss + 1) ∧
        t.counter .downAborted = (if s.line.down.rx.isSome then
          min 65535 ((s.elapse dt).counter .downAborted + 1) else (s.elapse dt).counter .downAborted) ∧
        t.counter .downFlushed = min 65535 ((s.elapse dt).counter .downFlushed +
          (s.line.down.express.length + s.line.down.normal.length)) ∧
        (∀ c, c ∉ [Counter.downLoss, .downAborted, .downFlushed, .unFull, .noticesLost] →
          t.counter c = (s.elapse dt).counter c) ∧
        (s.elapse dt).keepsBut t [.line, .counters])

/-- R25, R26: the start delimiter begins a reception; a code violation, the 251st byte and a failed check end it and are
counted. A reception is held without its bytes (the model's choice, assumption log 15). -/
def Obligations.ReceptionEnds : Prop :=
  ∀ (s : State) (dt : Nat) (p : PortId), s.held = false → (s.port p).link = .active →
    exec (.frameStartDelimiter dt p) s = .next ((s.elapse dt).setPort p { s.port p with rx := some [] }) ∧
    ((s.port p).rx.isSome = true →
      exec (.codeViolationInFrame dt p) s =
        .next (((s.elapse dt).setPort p { s.port p with rx := none }).count (abortedCounter p)) ∧
      exec (.frameOverlength dt p) s =
        .next (((s.elapse dt).setPort p { s.port p with rx := none }).count (lengthCounter p)) ∧
      ∀ bytes : List Byte, bytes.length ≤ 250 →
        (checkFailure bytes = some .length →
          exec (.frameCheckFailed dt p bytes) s =
            .next (((s.elapse dt).setPort p { s.port p with rx := none }).count (lengthCounter p))) ∧
        (checkFailure bytes = some .crc →
          exec (.frameCheckFailed dt p bytes) s =
            .next (((s.elapse dt).setPort p { s.port p with rx := none }).count (crcCounter p))))

/-- R28, R29: which selectors match an assigned and an unassigned node, bit by bit. -/
def Obligations.SelectorsMatch : Prop :=
  ∀ (s : State) (h : Hdr),
    (h.mode = 0 → (s.selected h = true ↔ s.mu.addr ≠ 0)) ∧
    (h.mode = 1 → (s.selected h = true ↔ ∃ p, s.line.hop = some p ∧ h.value ≠ 0 ∧ p.toNat = h.value.toNat)) ∧
    (h.mode = 2 → s.mu.addr ≠ 0 →
      (s.selected h = true ↔
        ∀ i < 10, h.mask.getLsbD i = false → s.mu.addr.getLsbD i = h.sel.getLsbD i)) ∧
    (h.mode = 2 → s.mu.addr = 0 → (s.selected h = true ↔ ∀ i < 10, h.mask.getLsbD i = true)) ∧
    (h.mode = 3 → s.selected h = false)

/-- R30: what an intact frame other than an ECHO_RPL teaches, and the notice POSITION. -/
def Obligations.PositionLearned : Prop :=
  ∀ (s : State) (dt : Nat) (h : Hdr),
    (h.port = .up → (s.arrived dt h).line.hop = some (if h.hops = 255 then 255 else h.hops + 1)) ∧
    (h.port = .down → (s.arrived dt h).line.hop = s.line.hop) ∧
    ((s.arrived dt h).line.hop = s.line.hop → s.arrived dt h = (s.elapse dt).endReception h.port) ∧
    (∀ new, (s.arrived dt h).line.hop = some new → s.line.hop ≠ some new → s.mu.node.enables.getLsbD 0 = true →
      s.line.up.normal.length < 32 →
      (s.elapse dt).noticed (s.arrived dt h) .line 4 [BitVec.ofNat 8 (hopCode s.line.hop), new])

/-- R34: at DOWN a MGMT_RPL and a NOTICE go on to UP normal with Hops unchanged and no block acts on them (counted UN_FULL at
the full queue, UP_NO_PORT while UP is not ACTIVE), and an ECHO_REQ is answered on DOWN express with its own receipt stamp and
goes no further. -/
def Obligations.UpstreamTaken : Prop :=
  ∀ (s : State) (dt : Nat) (h : Hdr) (payload : List Byte), s.canHear .down → h.port = .down → payload.length ≤ 240 →
    (s.line.up.link = .active → s.line.up.normal.length < 32 →
      exec (.mgmtRpl dt h payload) s = .next ((s.arrived dt h).setQueue .upNormal
        (s.line.up.normal ++ [⟨h.frame 0x41 payload, some (BitVec.ofNat 32 (s.now + dt)), .relayUp⟩])) ∧
      exec (.notice dt h payload) s = .next ((s.arrived dt h).setQueue .upNormal
        (s.line.up.normal ++ [⟨h.frame 0x42 payload, some (BitVec.ofNat 32 (s.now + dt)), .relayUp⟩])) ∧
      ∀ (u : State) (f : Frame) (stamp : Option Word32), u.written ⟨f, stamp, .relayUp⟩ = f) ∧
    (s.line.up.link = .active → 32 ≤ s.line.up.normal.length →
      exec (.mgmtRpl dt h payload) s = .next ((s.arrived dt h).count .unFull) ∧
      exec (.notice dt h payload) s = .next ((s.arrived dt h).count .unFull)) ∧
    (s.line.up.link ≠ .active →
      exec (.mgmtRpl dt h payload) s = .next ((s.arrived dt h).count .upNoPort) ∧
      exec (.notice dt h payload) s = .next ((s.arrived dt h).count .upNoPort)) ∧
    (s.line.down.express.length < 8 →
      exec (.echoReq dt h payload) s = .next ((s.arrived dt h).setQueue .downExpress
        (s.line.down.express ++
          [⟨ownFrame 0x82 h.tag (List.replicate 11 0), some (BitVec.ofNat 32 (s.now + dt)), .echoRpl⟩]))) ∧
    (8 ≤ s.line.down.express.length →
      exec (.echoReq dt h payload) s = .next ((s.arrived dt h).count .deFull))

/-- R35: a frame of unknown kind is counted, is not acted on, and goes on in its own direction with its payload, from UP with
Hops plus 1 and from DOWN with Hops as received; from UP it teaches the position. -/
def Obligations.UnknownForwarded : Prop :=
  ∀ (s : State) (dt : Nat) (h : Hdr) (kind : Byte) (payload : List Byte), s.canHear h.port → payload.length ≤ 240 →
    kind ∉ knownKinds →
    let v := (s.arrived dt h).count .unknownKind
    let stamp := some (BitVec.ofNat 32 (s.now + dt))
    (h.port = .up →
      v.line.hop = some (if h.hops = 255 then 255 else h.hops + 1) ∧
      (s.line.down.link = .active → s.line.down.normal.length < 16 →
        exec (.unknownKind dt h kind payload) s = .next (v.setQueue .downNormal
          (s.line.down.normal ++ [⟨h.frame kind payload, stamp, .relayDown⟩]))) ∧
      (s.line.down.link = .active → 16 ≤ s.line.down.normal.length →
        exec (.unknownKind dt h kind payload) s = .next (v.count .dnFull)) ∧
      (s.line.down.link ≠ .active → exec (.unknownKind dt h kind payload) s = .next v) ∧
      ∀ u : State, u.written ⟨h.frame kind payload, stamp, .relayDown⟩ =
        { h.frame kind payload with hops := if h.hops = 255 then 255 else h.hops + 1 }) ∧
    (h.port = .down →
      (s.line.up.link = .active → s.line.up.normal.length < 32 →
        exec (.unknownKind dt h kind payload) s = .next (v.setQueue .upNormal
          (s.line.up.normal ++ [⟨h.frame kind payload, stamp, .relayUp⟩]))) ∧
      (s.line.up.link = .active → 32 ≤ s.line.up.normal.length →
        exec (.unknownKind dt h kind payload) s = .next (v.count .unFull)) ∧
      (s.line.up.link ≠ .active → exec (.unknownKind dt h kind payload) s = .next (v.count .upNoPort)) ∧
      ∀ u : State, u.written ⟨h.frame kind payload, stamp, .relayUp⟩ = h.frame kind payload)

/-- R27, R30, R8: a frame of a known class at the wrong port is not acted on and is counted WRONG_DIRECTION; at UP it still
teaches the hop position (the model's reading, assumption log 27). A TIME frame discarded for its T0 (R8) or for its payload's
length (R195) changes nothing of the Timebase, is counted TIME_DISCARD, teaches the position and goes on. -/
def Obligations.FramesNotTaken : Prop :=
  ∀ (s : State) (dt : Nat) (h : Hdr) (payload : List Byte) (lag : Word32) (first : Bool), s.canHear h.port →
    payload.length ≤ 240 →
    (h.port = .down →
      let wrong := ((s.elapse dt).endReception .down).count .wrongDirection
      (∀ c ∈ [Instr.time dt h payload lag first, .audio dt h payload, .pageOpen dt h payload, .pageClose dt h payload,
          .bellNow dt h payload, .select dt h payload, .echoRpl dt h payload],
        exec c s = .next wrong) ∧
      (∀ rest : List Byte, rest.length ≤ 239 →
        ∀ c ∈ [Instr.drillStart dt h rest, .drillAbort dt h rest, .drillAllClear dt h rest], exec c s = .next wrong) ∧
      (badDrillCommand payload = true → exec (.drillBadCommand dt h payload) s = .next wrong) ∧
      (holdsRequest payload = false → exec (.unknownRequest dt h payload) s = .next wrong) ∧
      (∀ (bank : Bank) (start : Word16) (space count clear n pol : Byte) (data : List Byte), data.length ≤ 235 →
        (∀ c ∈ [Instr.ping dt h, .setAddr dt h start, .readTable dt h space start count clear, .activateBank dt h,
            .readStatus dt h, .resyncClock dt h n start pol, .recoverCircuit dt h n, .forceOn dt h n, .forceOff dt h n,
            .forceRelease dt h n, .saveImage dt h, .lineReset dt ⟨h, false⟩,
            .writeSched dt h bank start count data, .writeCalendar dt h start count data,
            .writeWeekplan dt h start count data, .writeWindows dt h start count data,
            .writeZoneattr dt h start count data, .writeTones dt h start count data,
            .writeClockcfg dt h start count data, .writeSupcfg dt h start count data,
            .writeDrillprog dt h start count data, .writeNodecfg dt h start count data],
          exec c s = .next wrong) ∧
        (11 ≤ space.toNat → exec (.writeTableBadSpace dt h space start count data) s = .next wrong))) ∧
    (h.port = .up →
      ∀ c ∈ [Instr.mgmtRpl dt h payload, .notice dt h payload, .echoReq dt h payload],
        exec c s = .next ((s.arrived dt h).count .wrongDirection)) ∧
    (h.port = .up → payload.length ≠ 11 ∨ 86400000 ≤ (word32At payload 2).toNat →
      ∃ t, exec (.time dt h payload lag first) s = .next t ∧ (s.arrived dt h).keepsBut t [.line, .counters] ∧
        t.counter .timeDiscard = min 65535 (s.counter .timeDiscard + 1) ∧
        (s.line.down.link = .active → s.line.down.express.length < 8 →
          t.line.down.express = s.line.down.express ++
            [⟨h.frame 0x01 payload, some (BitVec.ofNat 32 (s.now + dt)), .relayDown⟩]))

/-- R38, R39: the arbiter starts the oldest express frame, else the oldest normal frame, once the transmitter of an ACTIVE
port is idle and one byte time of idle has passed; t1 and the reply timer follow an ECHO_REQ (R15). At the end of its frame
the transmitter is idle. -/
def Obligations.TransmissionsRun : Prop :=
  ∀ (s : State) (dt : Nat) (p : PortId), s.held = false →
    let u := s.elapse dt
    (∀ (i : QItem) (e n : List QItem), (s.port p).link = .active →
      (s.port p).tx = none → (∀ l, (s.port p).lastTxEnd = some l → l + 2 ≤ s.now + dt) →
      ((s.port p).express = i :: e ∧ (s.port p).normal = n ∨
        (s.port p).express = [] ∧ e = [] ∧ (s.port p).normal = i :: n) →
      let f := u.written i
      let v := u.setPort p
        { s.port p with
          express := e, normal := n,
          tx := some ⟨f, crc f.bytes, s.now + dt, s.now + dt + 2 * (10 + f.payload.length + 2), i.origin⟩ }
      (i.origin ≠ .echoReq → exec (.transmitStart dt p) s = .next v) ∧
      (i.origin = .echoReq → exec (.transmitStart dt p) s =
        .next { v with tb := { v.tb with echo := .awaiting (BitVec.ofNat 32 (s.now + dt)) (s.now + dt + 100000) } })) ∧
    ∀ x : Transmission, (s.port p).tx = some x → x.ends ≤ s.now + dt → x.origin ≠ .resetReply →
      exec (.frameTransmitEnd dt p) s =
        .next (u.setPort p { s.port p with tx := none, lastTxEnd := some (s.now + dt) })

/-- R31, R18, R36: the fields written at the start of a transmission, of a forwarded frame and of this node's own: its
ECHO_REQ and ECHO_RPL with Hops 0, and its notices and replies, the LINE_RESET reply among them, with the hop position. Every
other field, and every other byte of the payload, is sent as it was queued. -/
def Obligations.FieldsWritten : Prop :=
  ∀ (u : State) (f : Frame) (stamp : Word32),
    (u.written ⟨f, some stamp, .relayDown⟩ = { f with hops := if f.hops = 255 then 255 else f.hops + 1 }) ∧
    (u.written ⟨f, some stamp, .relayUp⟩ = f) ∧
    (∀ l, f.payload.length = 11 →
      let g := u.written ⟨f, some stamp, .relayTime l⟩
      let a := min 4294967295 ((word32At f.payload 6).toNat + l + (BitVec.ofNat 32 u.now - stamp).toNat)
      g = { f with
        hops := if f.hops = 255 then 255 else f.hops + 1, payload := f.payload.take 6 ++ enc32 a ++ f.payload.drop 10 } ∧
      g.payload.length = 11 ∧ (word32At g.payload 6).toNat = a) ∧
    (f.payload.length = 11 →
      let g := u.written ⟨f, some stamp, .echoRpl⟩
      let turn := BitVec.ofNat 32 u.now - stamp
      g = { f with hops := 0, payload := enc32 turn.toNat ++ f.payload.drop 4 } ∧
      g.payload.length = 11 ∧ word32At g.payload 0 = turn) ∧
    (∀ x : Option Word32, u.written ⟨f, x, .echoReq⟩ = { f with hops := 0 }) ∧
    (∀ (x : Option Word32) (o : Origin), o = .own ∨ o = .resetReply →
      (∀ hop, u.line.hop = some hop → u.written ⟨f, x, o⟩ = { f with hops := hop }) ∧
      (u.line.hop = none → u.written ⟨f, x, o⟩ = { f with hops := 0 }))

/-- R192: the line reset, taken when the LINE_RESET reply has been sent, or at once when the reply is dropped at a full UP
normal. In the second case a copy of a request that does not stop here joins DOWN normal after the reset (the model's choice,
assumption log 9). -/
def Obligations.LineResetTaken : Prop :=
  ∀ (s : State) (dt : Nat), s.held = false →
    (∀ x : Transmission, s.line.up.tx = some x → x.ends ≤ s.now + dt → x.origin = .resetReply →
      ∃ t, exec (.frameTransmitEnd dt .up) s = .next t ∧
        ((s.elapse dt).setPort .up { s.line.up with tx := none, lastTxEnd := some (s.now + dt) }).afterLineReset t) ∧
    ∀ h : Hdr, s.canHear .up → h.port = .up → (s.arrived dt h).selected h = true → s.mu.resetPending = false →
      s.mu.save = none → (s.arrived dt h).hasRoom .upNormal = false →
      let v := s.arrived dt h
      let copied := v.consumes h = false ∧ s.line.down.link = .active
      ∃ t u, exec (.lineReset dt ⟨h, false⟩) s = .next t ∧ v.afterLineReset u ∧ (¬copied → t = u) ∧
        (copied → t = u.setQueue .downNormal [⟨h.frame 0x08 [11], some (BitVec.ofNat 32 (s.now + dt)), .relayDown⟩])

/-- R194, R26: a receiver that runs the CRC on over both CRC bytes ends with 0, and a frame sent with its CRC passes both
checks. -/
def Obligations.CrcAgrees : Prop :=
  (∀ l : List Byte, crc (l ++ enc16 (crc l).toNat) = 0) ∧
    ∀ f : Frame, f.payload.length ≤ 240 → checkFailure (f.bytes ++ enc16 (crc f.bytes).toNat) = none

/-! ## Campus time (Chapter 1) -/

/-- R9: the estimated campus time and its day. -/
def Obligations.EstimateFormed : Prop :=
  ∀ (f : TimeFields) (l : Nat), f.ms ≤ 86399999 → f.delay ≤ 4294967295 → l ≤ 50000 →
    let est := f.ms * 1000 + f.delay + l
    (86400000000 ≤ est → f.estimate l = (est - 86400000000, f.day + 1)) ∧
    (est < 86400000000 → f.estimate l = (est, f.day)) ∧
    (f.estimate l).1 < 86400000000

/-- R13: a slew replaces C with the offset and issues no time event. -/
def Obligations.TimeSlewed : Prop :=
  ∀ (s : State) (dt : Nat) (h : Hdr) (payload : List Byte) (lag : Word32) (first : Bool) (f : TimeFields),
    s.canHear .up → h.port = .up → timeFields payload = some f →
    let v := s.arrived dt h
    let e := v.tb.offsetMs (f.estimate s.tb.linkDelay)
    (s.tb.quality = .synced ∨ s.tb.quality = .holdover) → s.tb.epoch = some f.epoch →
    e.natAbs < s.mu.node.stepThreshold →
    ∃ t, exec (.time dt h payload lag first) s = .next t ∧
      t.tb = { v.tb with slew := e, timeoutEnd := some (s.now + dt + 5000000), quality := .synced } ∧
      (s.tb.quality = .synced → t.line.up.normal = v.line.up.normal) ∧
      (s.tb.quality = .holdover → s.mu.node.enables.getLsbD 1 = true → v.hasRoom .upNormal = true →
        v.noticed t .time 1 ([3, 2] ++ enc16 f.epoch.toNat)) ∧
      (s.line.down.link = .active → s.line.down.express.length < 8 →
        t.line.down.express = s.line.down.express ++
          [⟨h.frame 0x01 payload, some (BitVec.ofNat 32 (s.now + dt)), .relayTime s.tb.linkDelay⟩]) ∧
      v.keepsBut t [.line, .tb, .counters]

/-- R11, R12: a step sets campus time to the estimate carried forward, clears C, stores the epoch and writes the backup time
counter. The lag is an operand (the model's choice, assumption log 8); over it local time passes, and the slew counter has
moved on by the local milliseconds that end within it, those already overdue at the receipt among them (the model's choice,
assumption log 2). -/
def Obligations.TimeStepped : Prop :=
  ∀ (s : State) (dt : Nat) (h : Hdr) (payload : List Byte) (lag : Word32) (first : Bool) (f : TimeFields),
    s.canHear .up → h.port = .up → timeFields payload = some f →
    let v := s.arrived dt h
    let est := f.estimate s.tb.linkDelay
    let new := carryForward est lag.toNat
    s.tb.slewCount < 50 →
    (s.tb.quality = .invalid ∨ s.tb.quality = .backup ∨ s.tb.epoch ≠ some f.epoch ∨
      s.mu.node.stepThreshold ≤ (v.tb.offsetMs est).natAbs) →
    ∃ t, exec (.time dt h payload lag first) s = .next t ∧
      t.tb = { v.tb with
        day := new.2, ms := new.1 / 1000, phase := new.1 % 1000, slew := 0, epoch := some f.epoch,
        slewCount := (s.tb.slewCount + (v.tb.phase + lag.toNat) / 1000) % 50,
        timeoutEnd := some (s.now + dt + 5000000), quality := .synced } ∧ t.tb.us = new.1 % 1000 ∧
      t.now = s.now + dt + lag.toNat ∧ t.rs.timeWritten = true ∧ t.rs.day = new.2 ∧ t.rs.second = new.1 / 1000 / 1000 ∧
      v.keepsBut t [.now, .line, .tb, .bs, .za, .cld, .csv, .fdc, .rs, .counters, .draws]

/-- R1, R3, R5: a local millisecond: it ends 1,000 µs after the last, in INVALID as in every quality, or where the command
comes late at once, its late µs kept (the model's choice, assumption log 2). -/
def Obligations.TickMovesTime : Prop :=
  ∀ (s : State) (first : Bool), s.held = false →
    let n := if s.tb.slewCount < 49 then s.tb.slewCount + 1 else 0
    (s.tb.quality = .invalid →
      ∃ t, exec (.localTick first) s = .next t ∧
        t.tb = { s.tb with phase := s.tb.phase - 1000, slewCount := n } ∧ t.tb.us = 0 ∧
        t.now = s.now + (1000 - s.tb.phase) ∧ s.keepsBut t [.now, .tb, .counters, .draws] ∧
        ∀ c : Counter, c ≠ .skipped → t.counter c = s.counter c) ∧
    (s.tb.quality ≠ .invalid →
      let adv := if n = 0 then (if 0 < s.tb.slew then 2 else if s.tb.slew < 0 then 0 else 1) else 1
      let c := if n = 0 then (if 0 < s.tb.slew then s.tb.slew - 1 else if s.tb.slew < 0 then s.tb.slew + 1 else 0)
        else s.tb.slew
      ∃ t, exec (.localTick first) s = .next t ∧
        t.now = s.now + (1000 - s.tb.phase) ∧ (s.tb.phase ≤ 1000 → t.tb.us = 0) ∧
        t.tb = { s.tb with
          phase := s.tb.phase - 1000, slewCount := n, slew := c, ms := (s.tb.ms + adv) % 86400000,
          day := if s.tb.ms + adv < 86400000 then s.tb.day else s.tb.day + 1 } ∧
        s.keepsBut t [.now, .line, .tb, .bs, .za, .cld, .csv, .fdc, .rs, .counters, .draws])

/-- R14, R15, R16, R19: the TIME timeout, the echo period, the echo reply timer and the backup counter's second. An echo period
whose end is taken late keeps its pace (the model's choice, assumption log 26). -/
def Obligations.TimebaseTimers : Prop :=
  ∀ (s : State) (dt : Nat),
    (∀ e, s.held = false → s.tb.quality = .synced → s.tb.timeoutEnd = some e → e ≤ s.now + dt →
      ∃ t, exec (.timeTimeoutExpiry dt) s = .next t ∧
        t.tb = { (s.elapse dt).tb with timeoutEnd := none, quality := .holdover } ∧
        (s.elapse dt).keepsBut t [.line, .tb, .counters]) ∧
    (∀ e, s.held = false → s.tb.echo = .idle → s.tb.echoPeriod = some e → e ≤ s.now + dt →
      s.line.up.express.length < 4 →
      ∃ t, exec (.echoPeriodExpiry dt) s = .next t ∧
        t.tb = { (s.elapse dt).tb with
          echoPeriod := some (e + 16000000), echoTag := s.tb.echoTag + 1, echo := .queued } ∧
        t.line.up.express = s.line.up.express ++ [⟨echoReqFrame (s.tb.echoTag + 1), none, .echoReq⟩] ∧
        (s.elapse dt).keepsBut t [.line, .tb]) ∧
    (∀ t1 e, s.held = false → s.tb.echo = .awaiting t1 e → e ≤ s.now + dt →
      exec (.echoReplyTimeout dt) s =
        .next { (s.elapse dt).count .echoTimeout with tb := { (s.elapse dt).tb with echo := .idle } }) ∧
    (s.rs.checkOk = true → s.rs.second < 86399 →
      exec (.backupCounterSecond dt) s = .next { s.elapse dt with rs := { s.rs with second := s.rs.second + 1 } }) ∧
    (s.rs.checkOk = true → s.rs.second = 86399 →
      exec (.backupCounterSecond dt) s =
        .next { s.elapse dt with rs := { s.rs with second := 0, day := s.rs.day + 1 } })

/-- R16, R17: an ECHO_RPL in AWAITING gives a sample, taken into L directly or through the divide-by-eight filter. -/
def Obligations.EchoMeasured : Prop :=
  ∀ (s : State) (dt : Nat) (h : Hdr) (payload : List Byte) (t1 : Word32) (e : Nat), s.canHear .up → h.port = .up →
    s.tb.echo = .awaiting t1 e → payload.length = 11 → h.tag = s.tb.echoTag →
    let r := (BitVec.ofNat 32 (s.now + dt) - t1).toNat
    let turn := (word32At payload 0).toNat
    let m := min 50000 ((r - turn) / 2)
    let v := (s.elapse dt).endReception .up
    ∃ t, exec (.echoRpl dt h payload) s = .next t ∧ t.tb.echo = .idle ∧
      (r < turn → t = { v.count .echoInvalid with tb := { v.tb with echo := .idle } }) ∧
      (turn ≤ r → s.tb.sampleTaken = false → t = { v with
        tb := { v.tb with echo := .idle, linkDelay := m, sampleTaken := true } }) ∧
      (turn ≤ r → s.tb.sampleTaken = true →
        (t.tb.linkDelay : Int) = (s.tb.linkDelay : Int) + ((m : Int) - (s.tb.linkDelay : Int)) / 8 ∧
        t = { v with tb := { v.tb with echo := .idle, linkDelay := t.tb.linkDelay } })

/-! ## Groups and bells (Chapters 3 and 4) -/

/-- R53 to R55: a good SELECT applies its first eight steps to each SEL flag in turn and changes nothing else of the map. A step
of field ANY with lo above hi matches every record (the model's choice, assumption log 49). -/
def Obligations.SelectApplied : Prop :=
  ∀ (s : State) (dt : Nat) (h : Hdr) (payload : List Byte), s.canHear .up → h.port = .up → payload.length ≤ 240 →
    (s.arrived dt h).selected h = true →
    (selectGood payload = true →
      ∃ t, exec (.select dt h payload) s = .next t ∧
        (∀ o : Output, t.zm.sel[o] =
          (selectSteps payload).foldl (fun flag step => step.flagAfter o s.zm.attrs[o] flag) s.zm.sel[o]) ∧
        t.zm.windows = s.zm.windows ∧ t.zm.attrs = s.zm.attrs ∧
        (s.arrived dt h).keepsBut t [.line, .zm, .counters]) ∧
    (selectGood payload = false →
      ∃ t, exec (.select dt h payload) s = .next t ∧ (s.arrived dt h).keepsBut t [.line, .counters])

/-- R44: the first window that covers a zone decides its fate, and a zone that none covers is not local. R50, R57: a zone is
dropped at most once in a resolution, and no zone is where no search gives an index past the last output. -/
def Obligations.FirstWindowDecides : Prop :=
  (∀ (kind : OutputKind) (z : Nat) (ws : List Window),
    (searchZone kind z ws = .notLocal ↔ ∀ w ∈ ws, w.covers kind z = false) ∧
    ∀ (before after : List Window) (w : Window), ws = before ++ w :: after →
      (∀ x ∈ before, x.covers kind z = false) → w.covers kind z = true →
      searchZone kind z ws = indexHit kind (w.base + (z - w.start))) ∧
  ∀ (m : ZoneMap) (t : Target) (quietToo : Bool),
    (m.resolveBell t quietToo).overflow ≤ t.hi + 1 - t.lo ∧
    (m.resolvePage t).overflow ≤ (m.resolveBell t quietToo).overflow ∧
    (t.bad = false → t.mode = 0 →
      ((m.resolveBell t quietToo).overflow = 0 ↔
        ∀ z, t.lo ≤ z → z ≤ t.hi →
          searchZone .bell z m.windows.toList ≠ .overflow ∧ searchZone .speaker z m.windows.toList ≠ .overflow))

/-- R75, R73, R72: a BELL_NOW places one BELL claim of class 5 on each output of its set; in a fire it rings nothing. -/
def Obligations.BellNowTaken : Prop :=
  ∀ (s : State) (dt : Nat) (h : Hdr) (payload : List Byte), s.canHear .up → h.port = .up → payload.length = 18 →
    (s.arrived dt h).selected h = true → (byteAt payload 5).toNat ≤ 15 →
    let set := (s.zm.resolveBell (targetAt payload 0) ((byteAt payload 7).getLsbD 0)).set
    let d := (byteAt payload 6).toNat
    let dur := if d = 0 then 1 else if 120 < d then 120 else d
    let c : Claim := ⟨.bell, 5, .tone (s.za.tones.toList.getD (byteAt payload 5).toNat .factory),
      some (s.now + dt + dur * 1000000)⟩
    (s.fireMute = false → set ≠ [] →
      ∃ t, exec (.bellNow dt h payload) s = .next t ∧
        (∀ o ∈ set, c ∈ (t.out o).claims ∧ ∀ c' ∈ (t.out o).claims, c'.source = .bell → c' = c) ∧
        (∀ o, o ∉ set → (t.out o).claims = (s.out o).claims) ∧ t.za.tones = s.za.tones ∧
        (s.arrived dt h).keepsBut t [.line, .za, .csv, .counters, .draws]) ∧
    (s.fireMute = true →
      ∃ t, exec (.bellNow dt h payload) s = .next t ∧ (s.arrived dt h).keepsBut t [.line, .counters])

/-- R60: a bank is in order when no entry that is not EMPTY has a time below that of the nearest such entry before it;
ACTIVATE_BANK sets activation pending when the standby bank is in order, names the first entry out of order otherwise, and
changes nothing while an activation is pending. -/
def Obligations.BankActivated : Prop :=
  (∀ b : Schedule, firstOutOfOrder b = none ↔
    ∀ i j : Fin 256, i < j → b[i].kind ≠ .empty → b[j].kind ≠ .empty → b[i].time ≤ b[j].time) ∧
  (∀ (b : Schedule) (j : Fin 256), firstOutOfOrder b = some j →
    b[j].kind ≠ .empty ∧
    (∃ i : Fin 256, i < j ∧ b[i].kind ≠ .empty ∧ (∀ k : Fin 256, i < k → k < j → b[k].kind = .empty) ∧
      b[j].time < b[i].time) ∧
    ∀ i k : Fin 256, i < k → k < j → b[i].kind ≠ .empty → b[k].kind ≠ .empty → b[i].time ≤ b[k].time) ∧
  ∀ (s : State) (dt : Nat) (h : Hdr), s.takesRequest dt h →
    let v := s.arrived dt h
    (s.bs.pendingSwap = true →
      ∃ t, exec (.activateBank dt h) s = .next t ∧ v.replied t h.tag 5 .ok [] ∧ v.keepsBut t [.line, .counters]) ∧
    (s.bs.pendingSwap = false → firstOutOfOrder s.bs.standbyBank = none →
      ∃ t, exec (.activateBank dt h) s = .next t ∧ v.replied t h.tag 5 .ok [] ∧
        t.bs = { s.bs with pendingSwap := true } ∧ v.keepsBut t [.line, .bs, .counters]) ∧
    (∀ i, s.bs.pendingSwap = false → firstOutOfOrder s.bs.standbyBank = some i →
      ∃ t, exec (.activateBank dt h) s = .next t ∧ v.replied t h.tag 5 .order (enc16 i.val) ∧
        v.keepsBut t [.line, .counters])

/-- R64: the lowest-index valid calendar entry of the day gives the plan, else the week plan. -/
def Obligations.PlanOfDay : Prop :=
  ∀ (b : BellScheduler) (day : Word16),
    (∀ i : Fin 64, b.calendar[i].valid = true → b.calendar[i].date = day →
      (∀ j : Fin 64, j < i → ¬(b.calendar[j].valid = true ∧ b.calendar[j].date = day)) →
      b.planFor day = b.calendar[i].plan) ∧
    ((∀ i : Fin 64, ¬(b.calendar[i].valid = true ∧ b.calendar[i].date = day)) →
      ∀ d : Fin 7, d.val = day.toNat % 7 → b.planFor day = b.week[d])

/-- R61, R65 to R67, R72, R73: the Bell Scheduler at a local millisecond. The cursor is the first entry that is not EMPTY above
the high-water mark. At a second boundary the pending swap is taken on a minute, the second raises the mark where it is above
it, and the due entry that the plan includes is rung; the midnight roll derives the plan and begins the day's mark anew. The
bell is rung, and its end counted, from the end of the local millisecond, or where the command comes late at once (the model's
choice, assumption log 2). -/
def Obligations.BellSeconds : Prop :=
  (∀ (b : Schedule) (hwm : Option Nat),
    (cursorOf b hwm = none ↔ ∀ i : Fin 256, b[i].kind ≠ .empty → aboveMark hwm b[i].time = false) ∧
    ∀ i : Fin 256, cursorOf b hwm = some i ↔ b[i].kind ≠ .empty ∧ aboveMark hwm b[i].time = true ∧
      ∀ j : Fin 256, j < i → b[j].kind ≠ .empty → aboveMark hwm b[j].time = false) ∧
  ∀ (s : State) (first : Bool), s.held = false → s.tb.quality ≠ .invalid → s.tb.ms < 86400000 →
    let slewTick := ¬ s.tb.slewCount < 49
    let ms := s.tb.ms + (if slewTick ∧ 0 < s.tb.slew then 2 else if slewTick ∧ s.tb.slew < 0 then 0 else 1)
    let sec := ms / 1000
    let boundary := s.tb.ms / 1000 < sec
    let swapped : BellScheduler := { s.bs with active := otherBank s.bs.active, pendingSwap := false }
    ∃ t, exec (.localTick first) s = .next t ∧
      (¬boundary → t.bs = s.bs ∧ t.za = s.za) ∧
      (boundary → ms < 86400000 →
        let b := if s.bs.pendingSwap = true ∧ sec % 60 = 0 then
          { swapped with cursor := cursorOf swapped.activeBank swapped.hwm } else s.bs
        t.bs = if aboveMark b.hwm sec then { b with hwm := some sec, cursor := cursorOf b.activeBank (some sec) } else b) ∧
      (86400000 ≤ ms →
        let b := if s.bs.pendingSwap = true then swapped else s.bs
        t.bs = { b with
          plan := some (s.bs.planFor (s.tb.day + 1)), hwm := some 0, cursor := cursorOf b.activeBank (some 0) }) ∧
      (s.noneArmed → s.fireMute = true → ∀ o, (t.out o).claims = (s.out o).claims) ∧
      (s.noneArmed → boundary → ms < 86400000 → s.bs.pendingSwap = false →
        (aboveMark s.bs.hwm sec = false ∨ (∀ i : Fin 256, s.bs.activeBank[i].kind ≠ .empty →
            s.bs.activeBank[i].time = sec → s.planIncludes s.bs.activeBank[i] = false) →
          ∀ o, (t.out o).claims = (s.out o).claims) ∧
        ∀ i : Fin 256, aboveMark s.bs.hwm sec = true → s.bs.activeBank[i].time = sec →
          s.ringable s.bs.activeBank[i] →
          (∀ j : Fin 256, j ≠ i → s.bs.activeBank[j].kind ≠ .empty → s.bs.activeBank[j].time ≠ sec) →
          s.rung t s.bs.activeBank[i] (s.now + (1000 - s.tb.phase)))

/-- R68 to R71, R6: the Bell Scheduler at a step of time that is applied before the next local millisecond: the mark, the plan
and the cursor by the prior quality, the change of the day and the direction; the bells late by no more than the window, rung at
once; and the earlier ones of a forward step within the day, counted MISSED where the plan includes them. -/
def Obligations.BellSteps : Prop :=
  ∀ (s : State) (dt : Nat) (h : Hdr) (payload : List Byte) (lag : Word32) (first : Bool) (f : TimeFields),
    s.canHear .up → h.port = .up → timeFields payload = some f →
    let v := s.arrived dt h
    let est := f.estimate s.tb.linkDelay
    let new := carryForward est lag.toNat
    let ms := new.1 / 1000
    let sec := ms / 1000
    let w := s.mu.node.lateWindow
    let bank := s.bs.activeBank
    let marked : BellScheduler := { s.bs with hwm := some sec, cursor := cursorOf bank (some sec) }
    let derived : BellScheduler := { marked with plan := some (s.bs.planFor new.2) }
    let trusted := s.tb.quality = .synced ∨ s.tb.quality = .holdover
    v.tb.phase + lag.toNat < 1000 →
    (s.tb.quality = .invalid ∨ s.tb.quality = .backup ∨ s.tb.epoch ≠ some f.epoch ∨
      s.mu.node.stepThreshold ≤ (v.tb.offsetMs est).natAbs) →
    ∃ t, exec (.time dt h payload lag first) s = .next t ∧
      (s.tb.quality = .invalid ∨ new.2 ≠ s.tb.day → t.bs = derived) ∧
      (s.tb.quality ≠ .invalid → new.2 = s.tb.day → s.tb.ms < ms →
        t.bs = if s.tb.quality = .backup ∨ aboveMark s.bs.hwm sec = true then marked else s.bs) ∧
      (s.tb.quality ≠ .invalid → new.2 = s.tb.day → ms ≤ s.tb.ms → t.bs = s.bs) ∧
      (trusted → new.2 = s.tb.day → s.tb.ms < ms → aboveMark s.bs.hwm sec = true →
        t.counter .missed = min 65535 (s.counter .missed +
          ((List.finRange 256).filter (fun i => decide (bank[i].kind ≠ .empty) && aboveMark s.bs.hwm bank[i].time &&
            decide (bank[i].time + w < sec) && s.planIncludes bank[i])).length)) ∧
      (s.noneArmed →
        (s.tb.quality = .invalid ∨ s.tb.quality = .backup ∨ (new.2 = s.tb.day ∧ ms ≤ s.tb.ms) ∨
            (new.2 = s.tb.day ∧ aboveMark s.bs.hwm sec = false) ∨ (new.2 - s.tb.day).toInt < 0 →
          t.counter .missed = s.counter .missed ∧ ∀ o, (t.out o).claims = (s.out o).claims) ∧
        (∀ i : Fin 256, trusted → new.2 = s.tb.day → s.tb.ms < ms →
          aboveMark s.bs.hwm bank[i].time = true → sec ≤ bank[i].time + w → bank[i].time ≤ sec → s.ringable bank[i] →
          (∀ j : Fin 256, j ≠ i → bank[j].kind ≠ .empty → aboveMark s.bs.hwm bank[j].time = true →
            ¬(sec ≤ bank[j].time + w ∧ bank[j].time ≤ sec)) →
          s.rung t bank[i] (s.now + dt + lag.toNat)) ∧
        ∀ i : Fin 256, trusted → 0 < (new.2 - s.tb.day).toInt →
          sec ≤ bank[i].time + w → bank[i].time ≤ sec → { s with bs := derived }.ringable bank[i] →
          (∀ j : Fin 256, j ≠ i → bank[j].kind ≠ .empty → ¬(sec ≤ bank[j].time + w ∧ bank[j].time ≤ sec)) →
          s.rung t bank[i] (s.now + dt + lag.toNat))

/-! ## Claims and tones (Chapter 5) -/

/-- R84: the claim chosen has the lowest class and joined first among those of that class. -/
def Obligations.LeadingIsLowest : Prop :=
  ∀ (l : List Claim) (c : Claim), leading l = some c →
    ∃ before after, l = before ++ c :: after ∧ (∀ d ∈ before, c.cls < d.cls) ∧ ∀ d ∈ after, c.cls ≤ d.cls

/-- R91, R92: FORCE_OUTPUT ON, OFF and RELEASE. -/
def Obligations.ForceChanges : Prop :=
  ∀ (s : State) (dt : Nat) (h : Hdr) (o : Output), s.takesRequest dt h →
    let v := s.arrived dt h
    let n : Byte := BitVec.ofNat 8 o.val
    (o.val < 16 → s.mu.node.allowForceOn = true → (s.out o).force ≠ .on →
      ∃ t, exec (.forceOn dt h n) s = .next t ∧ v.replied t h.tag 9 .ok [] ∧ (t.out o).force = .on ∧
        (⟨.force, 2, .continuous, none⟩ : Claim) ∈ (t.out o).claims ∧ (∀ r, r ≠ o → t.out r = s.out r) ∧
        v.keepsBut t [.line, .za, .csv, .counters, .draws]) ∧
    (s.mu.node.allowForceOff = true → (s.out o).force ≠ .off →
      ∃ t, exec (.forceOff dt h n) s = .next t ∧ v.replied t h.tag 9 .ok [] ∧ (t.out o).force = .off ∧
        (t.out o).claims = (s.out o).claims.filter (fun c => decide (c.source ≠ .force)) ∧
        (∀ r, r ≠ o → t.out r = s.out r) ∧ v.keepsBut t [.line, .za, .csv, .counters, .draws]) ∧
    (∃ t, exec (.forceRelease dt h n) s = .next t ∧ v.replied t h.tag 9 .ok [] ∧ (t.out o).force = .none ∧
        (t.out o).claims = (s.out o).claims.filter (fun c => decide (c.source ≠ .force)) ∧
        (∀ r, r ≠ o → t.out r = s.out r) ∧ v.keepsBut t [.line, .za, .csv, .counters, .draws]) ∧
    (16 ≤ o.val → ∃ t, exec (.forceOn dt h n) s = .next t ∧ v.replied t h.tag 9 .badRange [] ∧
      v.keepsBut t [.line, .counters])

/-- R83, R82, R94, R95, R103: the ends of sounds. A BELL claim at the end of its duration leaves its list and no other list
changes. A pattern on an output moves to its OFF phase, to its next step, to its first step again or into silence, and the
chime of a call moves the same way, played once whatever its repeat flag; a new phase begins at the command's instant (the
model's choice, assumption log 25). -/
def Obligations.SoundsEnd : Prop :=
  ∀ (s : State) (dt : Nat), s.held = false →
    (∀ (o : Output) (c : Claim) (e : Nat), c ∈ (s.out o).claims → c.source = .bell → c.ends = some e → e ≤ s.now + dt →
      ∃ t, exec (.bellClaimExpiry dt o) s = .next t ∧
        (t.out o).claims = (s.out o).claims.filter (fun c => decide (c.source ≠ .bell)) ∧
        (t.out o).force = (s.out o).force ∧ (∀ r, r ≠ o → t.out r = s.out r) ∧
        (s.elapse dt).keepsBut t [.za, .csv, .counters, .draws]) ∧
    ∀ (p : TonePattern) (pos : TonePos) (st : ToneStep), p.steps[pos.step]? = some st →
      pos.since + (if pos.on then st.on else st.off) * 10000 ≤ s.now + dt →
      (∀ (o : Output) (level cls : Nat) (src : Source) (ends : Option Nat), (s.out o).play = .tone pos level →
        (s.out o).winning = some ⟨src, cls, .tone p, ends⟩ →
        ∃ t, exec (.tonePhaseEnd dt (.output o)) s = .next t ∧
          (pos.on = true → 0 < st.off → (t.out o).play = .tone ⟨pos.step, false, s.now + dt⟩ level) ∧
          ((pos.on = false ∨ st.off = 0) → pos.step + 1 < p.steps.length →
            (t.out o).play = .tone ⟨pos.step + 1, true, s.now + dt⟩ (s.attr o).level) ∧
          ((pos.on = false ∨ st.off = 0) → p.steps.length ≤ pos.step + 1 → p.repeats = true →
            (t.out o).play = .tone ⟨0, true, s.now + dt⟩ (s.attr o).level) ∧
          ((pos.on = false ∨ st.off = 0) → p.steps.length ≤ pos.step + 1 → p.repeats = false →
            (t.out o).play = .finished) ∧
          (t.out o).claims = (s.out o).claims ∧ (t.out o).winner = (s.out o).winner ∧
          (∀ r, r ≠ o → t.out r = s.out r) ∧ (s.elapse dt).keepsBut t [.za, .csv, .counters, .draws]) ∧
      ∀ (r : Fin 8) (c : Call), s.call r = some c → c.state = .chime → c.chime = some p → c.chimePos = some pos →
        ∃ t next, exec (.tonePhaseEnd dt (.chime r)) s = .next t ∧ t.call r = some { c with chimePos := next } ∧
          (pos.on = true → 0 < st.off → next = some ⟨pos.step, false, s.now + dt⟩) ∧
          ((pos.on = false ∨ st.off = 0) → pos.step + 1 < p.steps.length →
            next = some ⟨pos.step + 1, true, s.now + dt⟩) ∧
          ((pos.on = false ∨ st.off = 0) → p.steps.length ≤ pos.step + 1 → next = none) ∧
          (∀ k, k ≠ r → t.call k = s.call k) ∧
          (∀ o, (t.out o).claims = (s.out o).claims ∧ (t.out o).winner = (s.out o).winner) ∧
          (s.elapse dt).keepsBut t [.za, .pe]

/-- R87 to R89, R95, R109, R125, R186, R191: what the pins carry. A relay is closed in the ON phase of a tone and by a
CONTINUOUS claim; a zone plays its tone, the chime or the frame in play of its call, or silence; a tone of
300 + 100 k Hz repeats every 80 samples below its peak at the zone's level; a page sample is the product with both gains, rounded to nearest
with halves away from zero and saturated; a clock line's terminals carry the pulse in flight; an indicator line is on while a
class steered to it holds its standing condition. Held in reset nothing is driven. The samples of a tone, a chime or a frame
are counted from its own start, and no start is aligned to the sample clock (the model's choice, assumption log 50). -/
def Obligations.PinsCarry : Prop :=
  (∀ (s : State) (o : Output),
    (s.relayClosed o = true ↔ s.held = false ∧ o.val < 16 ∧
      ((∃ pos level, (s.out o).play = .tone pos level ∧ pos.on = true) ∨ (s.out o).play = .continuous)) ∧
    (s.silencesKept → s.isolated o = true ∨ (s.out o).winner = none →
      s.relayClosed o = false ∧ s.speakerSample o = 0) ∧
    ((s.out o).play = .silent ∨ (s.out o).play = .finished ∨ s.held = true → s.speakerSample o = 0) ∧
    (s.held = false →
      (∀ pos level cls src ends p st, (s.out o).play = .tone pos level →
        (s.out o).winning = some ⟨src, cls, .tone p, ends⟩ → p.steps[pos.step]? = some st →
        s.speakerSample o = if pos.on then toneSample level st.pitch ((s.now - pos.since) / 125) else 0) ∧
      ∀ gz level clip r cls content ends c, (s.out o).play = .page gz level clip →
        (s.out o).winning = some ⟨.page r, cls, content, ends⟩ → s.call r = some c →
        (∀ p pos st, c.state = .chime → c.chime = some p → c.chimePos = some pos → p.steps[pos.step]? = some st →
          s.speakerSample o = if pos.on then toneSample level st.pitch ((s.now - pos.since) / 125) else 0) ∧
        (c.state = .chime → c.chimePos = none → s.speakerSample o = 0) ∧
        (∀ xs since gp, c.state ≠ .chime → c.inPlay = some ⟨.samples xs, since, gp⟩ →
          s.speakerSample o = playedSample (xs.getD ((s.now - since) / 125) 0) gp gz) ∧
        (c.state ≠ .chime → c.inPlay = none ∨ (∃ since gp, c.inPlay = some ⟨.silence, since, gp⟩) →
          s.speakerSample o = 0))) ∧
  (∀ (x : Int) (gp gz : Nat),
    let exact := x * gp * gz
    let y := scaledSample x gp gz
    (0 ≤ x → 16384 * y ≤ exact + 8192 ∧ exact + 8192 < 16384 * y + 16384) ∧
    (x < 0 → exact - 8192 ≤ 16384 * y ∧ 16384 * y - 16384 < exact - 8192) ∧
    (-32768 ≤ y → y ≤ 32767 → playedSample x gp gz = y) ∧
    (y < -32768 → playedSample x gp gz = -32768) ∧ (32767 < y → playedSample x gp gz = 32767)) ∧
  (∀ level pitch n : Nat,
    (toneSample level pitch n).natAbs ≤ tonePeak level ∧ toneSample level pitch (n + 80) = toneSample level pitch n ∧
    toneSample level pitch 0 = 0 ∧ toneSample level 0 n = 0 ∧ toneSample level 2 4 = tonePeak level ∧
    tonePeak 255 = 32767 ∧ tonePeak 128 = 16448 ∧ tonePeak 0 = 0) ∧
  (∀ (s : State) (k : LineNo),
    (s.held = true → s.terminals k = none) ∧
    (s.held = false → s.terminals k = (s.clockLine k).pulse.map (·.polarity))) ∧
  ∀ (s : State) (w : Steer), s.held = false → w = .indA ∨ w = .indB →
    (s.indicator w = true ↔
      (s.mu.node.steering[0] = w ∧ (s.line.up.link ≠ .active ∨ s.line.down.link ≠ .active)) ∨
      (s.mu.node.steering[1] = w ∧ s.tb.quality ≠ .synced) ∨
      (s.mu.node.steering[2] = w ∧ ∃ k : LineNo, (s.clockCfg k).type ≠ .off ∧
        (s.clockLine k).mode ∈ [ClockMode.suspended, .unknownWait, .noTime]) ∨
      (s.mu.node.steering[3] = w ∧ ∃ c : Circuit, (s.circ c).state = .fault) ∨
      (s.mu.node.steering[4] = w ∧ (s.fdc.fire = .active ∨ s.fdc.fire = .clearing ∨ s.fdc.trouble = true)) ∨
      (s.mu.node.steering[5] = w ∧ s.fdc.drill ≠ none))

/-! ## Pages (Chapter 6) -/

/-- R99, R101: an open on a free channel creates a call in the lowest free record, with one claim on each of its zones. -/
def Obligations.PageOpened : Prop :=
  ∀ (s : State) (dt : Nat) (h : Hdr) (payload : List Byte) (f : OpenFields) (r : Fin 8), s.canHear .up → h.port = .up →
    (s.arrived dt h).selected h = true → openFields payload = some f →
    (s.zm.resolvePage f.target).set ≠ [] → s.callOn f.channel = none → s.freeRecord = some r →
    let set := (s.zm.resolvePage f.target).set
    ∃ t c, exec (.pageOpen dt h payload) s = .next t ∧ t.call r = some c ∧
      c.channel = f.channel ∧ c.priority = f.priority ∧ c.zones = set ∧ c.gain = f.gain ∧ c.fifo = [] ∧
      c.expected = none ∧ c.underruns = 0 ∧ c.order = s.pe.openOrder ∧ t.pe.openOrder = s.pe.openOrder + 1 ∧
      (f.chime = 0xFF → c.state = .prefill ∧ c.chime = none ∧ c.silenceEnd = some (s.now + dt + 2000000)) ∧
      (f.chime ≠ 0xFF → c.state = .chime ∧ c.silenceEnd = none ∧
        c.chime = some (s.za.tones.toList.getD f.chime.toNat .factory)) ∧
      (∀ k, k ≠ r → t.call k = s.call k) ∧
      (∀ o ∈ set, (⟨.page r, pageClass f.priority, .page, none⟩ : Claim) ∈ (t.out o).claims) ∧
      (∀ o, o ∉ set → (t.out o).claims = (s.out o).claims) ∧
      (s.arrived dt h).keepsBut t [.line, .za, .pe, .csv, .counters, .draws]

/-- R100, R102: an open on the channel of a call reopens it, replacing priority, zones and gain, its claims made again at the
tails of the lists; a call that leaves DRAIN for PLAY keeps its underrun count (the model's choice, assumption log 35). An open
with every record taken evicts the latest-opened of the least urgent calls where it is more urgent (its winners chosen twice,
the model's choice, assumption log 36), and is otherwise counted and ignored. -/
def Obligations.CallsRetaken : Prop :=
  ∀ (s : State) (dt : Nat) (h : Hdr) (payload : List Byte) (f : OpenFields), s.canHear .up → h.port = .up →
    (s.arrived dt h).selected h = true → openFields payload = some f → (s.zm.resolvePage f.target).set ≠ [] →
    let set := (s.zm.resolvePage f.target).set
    let v := s.arrived dt h
    let other : Fin 8 → Output → List Claim := fun r o => (s.out o).claims.filter (fun d => decide (d.source ≠ .page r))
    let new : Fin 8 → Claim := fun r => ⟨.page r, pageClass f.priority, .page, none⟩
    (∀ r c, s.callOn f.channel = some r → s.call r = some c →
      ∃ t, exec (.pageOpen dt h payload) s = .next t ∧
        t.call r = some { c with
          priority := f.priority, zones := set, gain := f.gain,
          state := match c.state with
            | .drain => if 3 ≤ c.fifo.length then .play else .prefill
            | st => st,
          silenceEnd := if c.state = .chime then none else some (s.now + dt + 2000000) } ∧
        (∀ k, k ≠ r → t.call k = s.call k) ∧ t.pe.openOrder = s.pe.openOrder ∧
        (∀ o ∈ set, (t.out o).claims = other r o ++ [new r]) ∧
        (∀ o ∈ c.zones, o ∉ set → (t.out o).claims = other r o) ∧
        (∀ o, o ∉ set → o ∉ c.zones → (t.out o).claims = (s.out o).claims) ∧
        v.keepsBut t [.line, .za, .pe, .csv, .counters, .draws]) ∧
    (s.callOn f.channel = none → (∀ r, s.call r ≠ none) →
      (∀ r c, s.call r = some c → f.priority < c.priority →
        (∀ k d, k ≠ r → s.call k = some d →
          d.priority < c.priority ∨ d.priority = c.priority ∧ s.openAge c < s.openAge d) →
        ∃ t c', exec (.pageOpen dt h payload) s = .next t ∧ t.call r = some c' ∧
          c'.channel = f.channel ∧ c'.priority = f.priority ∧ c'.zones = set ∧ c'.gain = f.gain ∧ c'.fifo = [] ∧
          c'.expected = none ∧ c'.inPlay = none ∧ c'.underruns = 0 ∧ c'.order = s.pe.openOrder ∧
          t.pe.openOrder = s.pe.openOrder + 1 ∧
          (f.chime = 0xFF → c'.state = .prefill ∧ c'.silenceEnd = some (s.now + dt + 2000000)) ∧
          (f.chime ≠ 0xFF → c'.state = .chime ∧ c'.silenceEnd = none) ∧
          (∀ k, k ≠ r → t.call k = s.call k) ∧
          t.counter .evicted = min 65535 (s.counter .evicted + 1) ∧
          (∀ o ∈ set, (t.out o).claims = other r o ++ [new r]) ∧
          (∀ o ∈ c.zones, o ∉ set → (t.out o).claims = other r o) ∧
          (∀ o, o ∉ set → o ∉ c.zones → (t.out o).claims = (s.out o).claims) ∧
          v.keepsBut t [.line, .za, .pe, .csv, .counters, .draws]) ∧
      ((∀ r c, s.call r = some c → c.priority ≤ f.priority) →
        ∃ t, exec (.pageOpen dt h payload) s = .next t ∧
          t.counter .openIgnored = min 65535 (s.counter .openIgnored + 1) ∧ v.keepsBut t [.line, .counters]))

/-- R110, R113: a close frees the record of a call in CHIME or with an empty FIFO, and sends any other into DRAIN. -/
def Obligations.PageClosed : Prop :=
  ∀ (s : State) (dt : Nat) (h : Hdr) (payload : List Byte) (r : Fin 8) (c : Call), s.canHear .up → h.port = .up →
    (s.arrived dt h).selected h = true → payload.length = 18 → (byteAt payload 0).toNat ≤ 15 →
    s.callOn (byteAt payload 0).toNat = some r → s.call r = some c →
    (c.state = .chime ∨ (c.state = .prefill ∨ c.state = .play) ∧ c.fifo = [] →
      ∃ t, exec (.pageClose dt h payload) s = .next t ∧ t.call r = none ∧ (∀ k, k ≠ r → t.call k = s.call k) ∧
        (∀ o ∈ c.zones, ∀ d ∈ (t.out o).claims, d.source ≠ .page r) ∧
        (∀ o, o ∉ c.zones → t.out o = s.out o) ∧
        (s.arrived dt h).keepsBut t [.line, .za, .pe, .csv, .counters, .draws]) ∧
    ((c.state = .prefill ∨ c.state = .play) → c.fifo ≠ [] →
      ∃ t, exec (.pageClose dt h payload) s = .next t ∧
        t.call r = some { c with state := .drain, silenceEnd := none } ∧ (∀ k, k ≠ r → t.call k = s.call k) ∧
        (s.arrived dt h).keepsBut t [.line, .pe, .counters])

/-- R104 to R106: the frame a call expects joins its FIFO, restarts its silence timer and, as the third frame of PREFILL,
starts PLAY. -/
def Obligations.AudioTaken : Prop :=
  ∀ (s : State) (dt : Nat) (h : Hdr) (payload : List Byte) (r : Fin 8) (c : Call), s.canHear .up → h.port = .up →
    audioGood payload = true → s.callOn (byteAt payload 0).toNat = some r → s.call r = some c →
    (c.state = .prefill ∨ c.state = .play) → (c.expected = none ∨ c.expected = some (byteAt payload 1)) →
    c.fifo.length < 8 →
    let begins := c.state = .prefill ∧ 2 ≤ c.fifo.length
    ∃ t, exec (.audio dt h payload) s = .next t ∧
      t.call r = some { c with
        expected := some (byteAt payload 1 + 1), fifo := c.fifo ++ [.samples (audioSamples payload)],
        silenceEnd := some (s.now + dt + 2000000), state := if begins then .play else c.state,
        underruns := if begins then 0 else c.underruns } ∧
      (∀ k, k ≠ r → t.call k = s.call k) ∧ t.pe.openOrder = s.pe.openOrder ∧
      (s.arrived dt h).keepsBut t [.line, .pe, .counters]

/-- R103, R112: the end of a chime enters PREFILL, and the end of the silence timer closes the call. -/
def Obligations.CallTimersEnd : Prop :=
  ∀ (s : State) (dt : Nat) (r : Fin 8) (c : Call) (e : Nat), s.held = false → s.call r = some c → e ≤ s.now + dt →
    (c.state = .chime → c.chimeEnd = some e →
      exec (.chimeEnd dt r) s = .next ((s.elapse dt).setCall r (some { c with
        state := .prefill, fifo := [], expected := none, chimeEnd := none, chimePos := none,
        silenceEnd := some (s.now + dt + 2000000) }))) ∧
    (c.silenceEnd = some e →
      ∃ t, exec (.silenceTimerExpiry dt r) s = .next t ∧ t.call r = none ∧ (∀ k, k ≠ r → t.call k = s.call k) ∧
        (∀ o ∈ c.zones, ∀ d ∈ (t.out o).claims, d.source ≠ .page r) ∧
        (s.mu.node.enables.getLsbD 3 = true → s.line.up.normal.length < 32 →
          (s.elapse dt).noticed t .page 3 [BitVec.ofNat 8 c.channel]) ∧
        (s.elapse dt).keepsBut t [.line, .za, .pe, .csv, .counters, .draws])

/-- R107, R108, R111: a tick of the frame clock plays the next frame of each call, a silence frame where PLAY finds none,
and closes a call that has drained. The clock keeps its period (the model's choice, assumption log 26), and a frame in play
begins at the instant of the command, also where the tick is taken late (the model's choice, assumption log 25). -/
def Obligations.FramesPlayed : Prop :=
  ∀ (s : State) (dt : Nat), s.held = false → s.pe.nextTick ≤ s.now + dt →
    ∃ t, exec (.frameClockTick dt) s = .next t ∧ t.pe.nextTick = s.pe.nextTick + 5000 ∧
      (∀ r c f rest, s.call r = some c → c.state = .play → c.fifo = f :: rest →
        t.call r = some { c with fifo := rest, inPlay := some ⟨f, s.now + dt, c.gain⟩, underruns := 0 }) ∧
      (∀ r c f rest, s.call r = some c → c.state = .drain → c.fifo = f :: rest →
        t.call r = some { c with fifo := rest, inPlay := some ⟨f, s.now + dt, c.gain⟩, underruns := 0 }) ∧
      (∀ r c, s.call r = some c → c.state = .play → c.fifo = [] → c.underruns < 19 →
        t.call r = some { c with inPlay := some ⟨.silence, s.now + dt, c.gain⟩, underruns := c.underruns + 1 }) ∧
      (∀ r c, s.call r = some c → c.state = .play → c.fifo = [] → 19 ≤ c.underruns →
        t.call r = some { c with
          inPlay := some ⟨.silence, s.now + dt, c.gain⟩, underruns := 0, state := .prefill }) ∧
      (∀ r c, s.call r = some c → c.state = .drain → c.fifo = [] → t.call r = none) ∧
      (∀ r, s.call r = none → t.call r = none) ∧
      (s.elapse dt).keepsBut t [.za, .pe, .csv, .counters, .draws]

/-! ## Clock lines and supervision (Chapters 7 and 8) -/

/-- R126 to R128, R149: the in-pulse check. That a GOOD reading leaves the circuit's last reading as it was is the model's
choice (assumption log 42), and so is the entry of a current fault into a circuit that was disabled and enabled again within
the pulse (assumption log 41). -/
def Obligations.PulseChecked : Prop :=
  ∀ (s : State) (dt : Nat) (k : LineNo) (p : Pulse) (reading : Byte), s.held = false → (s.clockLine k).pulse = some p →
    p.result = .pending → p.midDue ≤ s.now + dt →
    (p.openLim ≤ reading.toNat → reading.toNat ≤ p.shortLim →
      exec (.pulseMidCheck dt k reading) s = .next ((s.elapse dt).setClockLine k
        { s.clockLine k with pulse := some { p with result := .good } })) ∧
    (reading.toNat < p.openLim → reading.toNat ≤ p.shortLim → (s.supCfg (circuitOfLine k)).enabled = true →
      (s.circ (circuitOfLine k)).state ≠ .fault →
      ∃ t, exec (.pulseMidCheck dt k reading) s = .next t ∧
        (t.clockLine k).pulse = some { p with result := .openLine } ∧ t.rs = s.rs ∧
        t.circ (circuitOfLine k) = ⟨.fault, 0, some .openLine, false, false, some reading⟩ ∧
        (∀ c, c ≠ circuitOfLine k → t.circ c = s.circ c)) ∧
    (p.shortLim < reading.toNat → (s.supCfg (circuitOfLine k)).enabled = true →
      (s.circ (circuitOfLine k)).state ≠ .fault → (s.clockLine k).pending = none →
      ∃ t, exec (.pulseMidCheck dt k reading) s = .next t ∧
        (t.clockLine k).pulse = none ∧ (t.clockLine k).lastEnd = some (s.now + dt) ∧
        (t.retained k).position = (s.retained k).position ∧ (t.retained k).polarity = (s.retained k).polarity ∧
        t.circ (circuitOfLine k) = ⟨.fault, 0, some .short, false, false, some reading⟩ ∧
        (∀ c, c ≠ circuitOfLine k → t.circ c = s.circ c))

/-- R128, R129, R131: a pulse's end, counted or not, with its pending position taken up. After a counted pulse the last
polarity is the pulse's, also of a line that is SAME now (the model's reading, assumption log 34). -/
def Obligations.PulseEnds : Prop :=
  ∀ (s : State) (dt : Nat) (k : LineNo) (p : Pulse), s.held = false → (s.clockLine k).pulse = some p →
    p.result ≠ .pending → p.due ≤ s.now + dt →
    let r := s.retained k
    let kept := (s.clockCfg k).type.kept
    ∃ t, exec (.pulseEnd dt k) s = .next t ∧ (t.clockLine k).lastEnd = some (s.now + dt) ∧
      (t.clockLine k).pending = none ∧ (∀ l, l ≠ k → t.retained l = s.retained l) ∧
      (p.result = .good → (s.clockLine k).pending = none →
        t.retained k = { r with
          position := r.position.map (fun i => (i + 1) % (s.clockCfg k).type.dial), polarity := p.polarity,
          type := kept }) ∧
      (p.result = .openLine → (s.clockLine k).pending = none → t.retained k = { r with type := kept }) ∧
      (∀ i pol, p.result = .good → (s.clockLine k).pending = some (.position i pol) →
        t.retained k = ⟨some i, pol.getD p.polarity, true, kept⟩) ∧
      (∀ i pol, p.result = .openLine → (s.clockLine k).pending = some (.position i pol) →
        t.retained k = ⟨some i, pol.getD r.polarity, true, kept⟩) ∧
      ((s.clockLine k).pending = some .unknown →
        (t.retained k).position = none ∧ (t.retained k).valid = false ∧ (t.retained k).type = kept) ∧
      (s.elapse dt).keepsBut t [.line, .cld, .csv, .rs, .counters, .draws]

/-- R121 to R126: the evaluation of a line, at the end of its gap wait, at a step boundary that its type uses, and at a step or
the start of campus time: the mode, and in ADVANCE the pulse or the gap wait. A line with a pulse in flight or of type OFF is
not evaluated. A tick taken late falls at once (the model's choice, assumption log 2), and the lag of a step is an operand
(assumption log 8). -/
def Obligations.ClockLineEvaluated : Prop :=
  (∀ (ty : ClockType) (ms i : Nat), ty ≠ .off →
    distance ty ms i < ty.dial ∧ (distance ty ms i + i) % ty.dial = ms / ty.stepMs % ty.dial) ∧
  (∀ (s : State) (dt : Nat) (k : LineNo) (e : Nat), s.held = false → (s.clockLine k).gapEnd = some e → e ≤ s.now + dt →
    (s.clockLine k).pulse = none → (s.clockCfg k).type ≠ .off →
    ∃ t, exec (.gapWaitEnd dt k) s = .next t ∧ s.evaluated t k s.tb.quality s.tb.ms (s.now + dt) ∧
      (∀ l, l ≠ k → t.clockLine l = s.clockLine l) ∧
      (s.elapse dt).keepsBut t [.line, .cld, .csv, .counters, .draws]) ∧
  (∀ (s : State) (first : Bool), s.held = false → s.tb.quality ≠ .invalid → s.tb.ms < 86400000 →
    let slewTick := ¬ s.tb.slewCount < 49
    let ms := s.tb.ms + (if slewTick ∧ 0 < s.tb.slew then 2 else if slewTick ∧ s.tb.slew < 0 then 0 else 1)
    let used : ClockType → Prop := fun ty =>
      s.tb.ms / 30000 < ms / 30000 ∧ (ty = .half ∨ ty = .minute ∧ ms / 30000 % 2 = 0)
    ∃ t, exec (.localTick first) s = .next t ∧ t.cld.cfg = s.cld.cfg ∧ ∀ k : LineNo,
      (used (s.clockCfg k).type → (s.clockLine k).pulse = none →
        s.evaluated t k s.tb.quality (ms % 86400000) (s.now + (1000 - s.tb.phase))) ∧
      (¬used (s.clockCfg k).type ∨ (s.clockLine k).pulse ≠ none → t.clockLine k = s.clockLine k)) ∧
  ∀ (s : State) (dt : Nat) (h : Hdr) (payload : List Byte) (lag : Word32) (first : Bool) (f : TimeFields),
    s.canHear .up → h.port = .up → timeFields payload = some f →
    let v := s.arrived dt h
    let est := f.estimate s.tb.linkDelay
    let new := carryForward est lag.toNat
    v.tb.phase + lag.toNat < 1000 →
    (s.tb.quality = .invalid ∨ s.tb.quality = .backup ∨ s.tb.epoch ≠ some f.epoch ∨
      s.mu.node.stepThreshold ≤ (v.tb.offsetMs est).natAbs) →
    ∃ t, exec (.time dt h payload lag first) s = .next t ∧ t.cld.cfg = s.cld.cfg ∧ ∀ k : LineNo,
      ((s.clockCfg k).type ≠ .off → (s.clockLine k).pulse = none →
        s.evaluated t k .synced (new.1 / 1000) (s.now + dt + lag.toNat)) ∧
      ((s.clockCfg k).type = .off ∨ (s.clockLine k).pulse ≠ none → t.clockLine k = s.clockLine k)

/-- R130, R131: a RESYNC_CLOCK takes effect at once, or is held as the pending position during a pulse. -/
def Obligations.ClockResynced : Prop :=
  ∀ (s : State) (dt : Nat) (h : Hdr) (k : LineNo) (position : Word16) (polarity : Byte), s.takesRequest dt h →
    (s.clockCfg k).type ≠ .off → position.toNat < (s.clockCfg k).type.dial → polarity.toNat ≤ 2 →
    let v := s.arrived dt h
    let pol : Option Polarity := if polarity = 0 then some .a else if polarity = 1 then some .b else none
    let n : Byte := BitVec.ofNat 8 k.val
    ((s.clockLine k).pulse = none →
      ∃ t, exec (.resyncClock dt h n position polarity) s = .next t ∧ v.repliedFirst t h.tag 7 .ok [] ∧
        t.retained k =
          ⟨some position.toNat, pol.getD (s.retained k).polarity, true, (s.clockCfg k).type.kept⟩ ∧
        (∀ l, l ≠ k → t.retained l = s.retained l) ∧
        v.keepsBut t [.line, .cld, .csv, .rs, .counters, .draws]) ∧
    ((s.clockLine k).pulse.isSome = true →
      ∃ t, exec (.resyncClock dt h n position polarity) s = .next t ∧ v.replied t h.tag 7 .ok [] ∧
        t.clockLine k = { s.clockLine k with pending := some (.position position.toNat pol) } ∧
        (∀ l, l ≠ k → t.clockLine l = s.clockLine l) ∧ v.keepsBut t [.line, .cld, .counters])

/-- R143 to R146: the reading at the end of a dwell, of a circuit outside FAULT and of one in FAULT. -/
def Obligations.DwellJudged : Prop :=
  ∀ (s : State) (dt : Nat) (c : Circuit) (start len : Nat) (reading : Byte), s.held = false →
    s.csv.scan = .dwell c start len → start + len ≤ s.now + dt →
    let cfg := s.supCfg c
    let cr := s.circ c
    let r := reading.toNat
    let inner := cfg.lo + cfg.h ≤ r ∧ r + cfg.h ≤ cfg.hi
    ∃ t, exec (.dwellEnd dt reading) s = .next t ∧ (∀ d, d ≠ c → t.circ d = s.circ d) ∧
      (cr.state ≠ .fault →
        (cfg.lo ≤ r → r ≤ cfg.hi → t.circ c = { cr with state := .normal, count := 0, last := some reading }) ∧
        (r < cfg.lo ∨ cfg.hi < r → cr.count + 1 < cfg.n →
          t.circ c = { cr with state := .alert, count := cr.count + 1, last := some reading }) ∧
        (r < cfg.lo → cfg.n ≤ cr.count + 1 →
          t.circ c = ⟨.fault, 0, some .short, (outputOf c).isSome && cfg.autoIsolate, false, some reading⟩) ∧
        (cfg.lo ≤ r → cfg.hi < r → cfg.n ≤ cr.count + 1 →
          t.circ c = ⟨.fault, 0, some .openLine, (outputOf c).isSome && cfg.autoIsolate, false, some reading⟩)) ∧
      (cr.state = .fault →
        (r < cfg.lo → t.circ c = { cr with kind := some .short, recoverable := false, last := some reading }) ∧
        (cfg.lo ≤ r → cfg.hi < r →
          t.circ c = { cr with kind := some .openLine, recoverable := false, last := some reading }) ∧
        (inner → cfg.autoRecover = true → t.circ c = { CircRecord.fresh with last := some reading }) ∧
        (inner → cfg.autoRecover = false → t.circ c = { cr with recoverable := true, last := some reading }) ∧
        (cfg.lo ≤ r → r ≤ cfg.hi → ¬inner → t.circ c = { cr with last := some reading })) ∧
      t.csv.cfg = s.csv.cfg ∧ (s.elapse dt).keepsBut t [.line, .za, .cld, .csv, .counters, .draws]

/-- R148: RECOVER_CIRCUIT. -/
def Obligations.CircuitRecovered : Prop :=
  ∀ (s : State) (dt : Nat) (h : Hdr) (c : Circuit), s.takesRequest dt h →
    let v := s.arrived dt h
    let n : Byte := BitVec.ofNat 8 c.val
    ((s.circ c).state = .fault → (s.circ c).recoverable = true →
      ∃ t, exec (.recoverCircuit dt h n) s = .next t ∧ v.repliedFirst t h.tag 8 .ok [] ∧
        t.circ c = ⟨.normal, 0, none, false, false, (s.circ c).last⟩ ∧ (∀ d, d ≠ c → t.circ d = s.circ d) ∧
        v.keepsBut t [.line, .za, .cld, .csv, .counters, .draws]) ∧
    ((s.circ c).state = .fault → (s.circ c).recoverable = false →
      ∃ t, exec (.recoverCircuit dt h n) s = .next t ∧ v.replied t h.tag 8 .badState [] ∧
        v.keepsBut t [.line, .counters]) ∧
    ((s.circ c).state ≠ .fault →
      ∃ t, exec (.recoverCircuit dt h n) s = .next t ∧ v.replied t h.tag 8 .ok [] ∧ v.keepsBut t [.line, .counters])

/-! ## Fire and drills (Chapter 9) -/

/-- R154 to R158, R171: a check of the FIRE channel: the counts, the trouble run, the entry to ACTIVE, the moves between ACTIVE
and CLEARING, and the return to QUIET. The next check follows 100 ms after the due time of this one, also where this one is
taken late (the model's choice, assumption log 26). -/
def Obligations.FireChecked : Prop :=
  ∀ (s : State) (dt : Nat) (reading : Byte), s.held = false → s.fdc.nextCheck ≤ s.now + dt →
    let nf := s.mu.node.activateDelay
    let nc := s.mu.node.clearDelay
    let k := s.fdc.count
    let cls := s.mu.node.fireClass reading
    ∃ t, exec (.fireCheck dt reading) s = .next t ∧ t.fdc.nextCheck = s.fdc.nextCheck + 100000 ∧
      (cls = .active → s.fdc.fire = .quiet → 2 ≤ nf → t.fdc.fire = .pending ∧ t.fdc.count = 1 ∧ t.za = s.za) ∧
      (cls = .active → s.fdc.fire = .pending → k + 1 < nf →
        t.fdc.fire = .pending ∧ t.fdc.count = k + 1 ∧ t.za = s.za) ∧
      (cls = .inactive → s.fdc.fire = .pending → t.fdc.fire = .quiet ∧ t.fdc.count = 0 ∧ t.za = s.za) ∧
      (cls = .inactive ∧ s.fdc.fire = .quiet ∨ cls = .active ∧ s.fdc.fire = .active →
        t.fdc.fire = s.fdc.fire ∧ t.fdc.count = k ∧ t.za = s.za) ∧
      (cls = .trouble → t.fdc.fire = s.fdc.fire ∧ t.fdc.count = k ∧ t.za = s.za ∧
        t.fdc.troubleRun = min 10 (s.fdc.troubleRun + 1) ∧
        t.fdc.trouble = (s.fdc.trouble || decide (s.fdc.troubleRun = 9))) ∧
      (cls ≠ .trouble → t.fdc.troubleRun = 0 ∧ t.fdc.trouble = false) ∧
      (cls = .active → s.fdc.fire = .pending ∧ nf ≤ k + 1 ∨ s.fdc.fire = .quiet ∧ nf ≤ 1 →
        t.fdc.fire = .active ∧ t.fdc.count = 0 ∧ t.fdc.drill = none ∧
        (∃ r, t.fdc.roll = some r ∧ r.kind = .fire ∧ r.isOpen = true ∧ r.sweepMask = s.mu.node.fireSweeps ∧
          r.openedAt = s.now + dt) ∧
        (s.mu.node.evacOnFire = true → t.fdc.fireSet = some s.zm.resolveEvac ∧
          ∀ o ∈ s.zm.resolveEvac,
            (⟨.fdc, 0, .tone (s.za.tones.toList.getD s.mu.node.firePattern .factory), none⟩ : Claim) ∈
              (t.out o).claims) ∧
        ∀ o, (s.mu.node.evacOnFire = false ∨ o ∉ s.zm.resolveEvac) → ∀ c ∈ (t.out o).claims, c.source ≠ .fdc) ∧
      (cls = .inactive → s.fdc.fire = .active → 2 ≤ nc →
        t.fdc.fire = .clearing ∧ t.fdc.count = 1 ∧ t.za = s.za ∧
        ∀ r, s.fdc.roll = some r → t.fdc.roll = some { r with lastPhase := 3 }) ∧
      (cls = .inactive → s.fdc.fire = .clearing → k + 1 < nc →
        t.fdc.fire = .clearing ∧ t.fdc.count = k + 1 ∧ t.za = s.za ∧ t.fdc.roll = s.fdc.roll) ∧
      (cls = .active → s.fdc.fire = .clearing →
        t.fdc.fire = .active ∧ t.fdc.count = 0 ∧ t.za = s.za ∧
        ∀ r, s.fdc.roll = some r → t.fdc.roll = some { r with lastPhase := 2 }) ∧
      (cls = .inactive → s.fdc.fire = .active ∧ nc ≤ 1 ∨ s.fdc.fire = .clearing ∧ nc ≤ k + 1 →
        t.fdc.fire = .quiet ∧ t.fdc.count = 0 ∧ t.fdc.fireSet = none ∧
        (∀ r, s.fdc.roll = some r → t.fdc.roll = some { r.close with
          lastPhase := 0, outcome := if r.close.missing = 0 then .complete else .incomplete }) ∧
        (∀ o ∈ s.fdc.fireSet.getD [],
          (t.out o).claims = (s.out o).claims.filter (fun c => decide (c.source ≠ .fdc))) ∧
        ∀ o, o ∉ s.fdc.fireSet.getD [] → (t.out o).claims = (s.out o).claims) ∧
      (s.elapse dt).keepsBut t [.line, .za, .csv, .fdc, .counters, .draws]

/-- R161, R162, R164: the four DRILL rows: an arming START, an ABORT, an ALL_CLEAR of an evacuation, and a bad command. -/
def Obligations.DrillFramesTaken : Prop :=
  ∀ (s : State) (dt : Nat) (h : Hdr) (rest : List Byte), s.canHear .up → h.port = .up →
    (s.arrived dt h).selected h = true → rest.length = 17 →
    let id := word16At rest 0
    let v := s.arrived dt h
    (∀ p : Fin 4, id ≠ 0 → (byteAt rest 2).toNat = p.val → (word32At rest 5).toNat < 86400000 → s.fdc.drill = none →
      s.fireMute = false → s.tb.quality ≠ .invalid →
      0 < campusDiff s.tb.day s.tb.ms (word16At rest 3) (word32At rest 5).toNat →
      campusDiff s.tb.day s.tb.ms (word16At rest 3) (word32At rest 5).toNat ≤ 86400000 →
      ∃ t d, exec (.drillStart dt h rest) s = .next t ∧ t.fdc = { s.fdc with drill := some d } ∧ d.phase = .armed ∧
        d.id = id ∧ d.program = p ∧ d.prog = s.fdc.programs[p] ∧ d.startDay = word16At rest 3 ∧
        d.startMs = (word32At rest 5).toNat ∧ v.keepsBut t [.line, .fdc, .counters]) ∧
    (∀ d, s.fdc.drill = some d → d.id = id →
      ∃ t, exec (.drillAbort dt h rest) s = .next t ∧ t.fdc.drill = none ∧
        (∀ o, ∀ c ∈ (t.out o).claims, c.source ≠ .fdc) ∧ t.fdc.fire = s.fdc.fire ∧
        v.keepsBut t [.line, .za, .csv, .fdc, .counters, .draws]) ∧
    (∀ d, s.fdc.drill = some d → d.id = id → (d.phase = .evacuate ∨ d.phase = .hold) → 0 < d.prog.clearTime →
      ∃ t, exec (.drillAllClear dt h rest) s = .next t ∧
        t.fdc.drill = some { d with
          phase := .allClear, deadline := some (s.now + dt + d.prog.clearTime * 1000000),
          evacSet := some s.zm.resolveEvac } ∧
        (∀ r, s.fdc.roll = some r → t.fdc.roll = some { r.close with lastPhase := 5 }) ∧
        (∀ o, o ∉ s.zm.resolveEvac → ∀ c ∈ (t.out o).claims, c.source ≠ .fdc) ∧
        v.keepsBut t [.line, .za, .csv, .fdc, .counters, .draws]) ∧
    (∀ payload : List Byte, payload.length ≤ 240 → badDrillCommand payload = true →
      ∃ t, exec (.drillBadCommand dt h payload) s = .next t ∧ v.keepsBut t [.line, .counters])

/-- R163, R165 to R168: the end of ARMED, at the second boundary or the step that reaches the drill's start, and those of
PRE_ALERT, EVACUATE, HOLD and ALL_CLEAR at their deadlines. A tick taken late falls at once (the model's choice, assumption
log 2), the lag of a step is an operand (assumption log 8), and campus times are compared in ms (assumption log 18). -/
def Obligations.DrillPhasesEnd : Prop :=
  (∀ (s : State) (first : Bool) (d : Drill), s.held = false → s.tb.quality ≠ .invalid → s.tb.ms < 86400000 →
    s.fdc.drill = some d → d.phase = .armed →
    let slewTick := ¬ s.tb.slewCount < 49
    let ms := s.tb.ms + (if slewTick ∧ 0 < s.tb.slew then 2 else if slewTick ∧ s.tb.slew < 0 then 0 else 1)
    let day := if ms < 86400000 then s.tb.day else s.tb.day + 1
    let reached := s.tb.ms / 1000 < ms / 1000 ∧ 0 ≤ campusDiff d.startDay d.startMs day (1000 * (ms / 1000 % 86400))
    ∃ t, exec (.localTick first) s = .next t ∧
      (reached → s.drillStarted t d (s.now + (1000 - s.tb.phase))) ∧ (¬reached → t.fdc = s.fdc)) ∧
  (∀ (s : State) (dt : Nat) (h : Hdr) (payload : List Byte) (lag : Word32) (first : Bool) (f : TimeFields) (d : Drill),
    s.canHear .up → h.port = .up → timeFields payload = some f → s.fdc.drill = some d → d.phase = .armed →
    let v := s.arrived dt h
    let est := f.estimate s.tb.linkDelay
    let new := carryForward est lag.toNat
    let reached := 0 ≤ campusDiff d.startDay d.startMs new.2 (new.1 / 1000)
    v.tb.phase + lag.toNat < 1000 → s.tb.quality ≠ .invalid →
    (s.tb.quality = .backup ∨ s.tb.epoch ≠ some f.epoch ∨ s.mu.node.stepThreshold ≤ (v.tb.offsetMs est).natAbs) →
    ∃ t, exec (.time dt h payload lag first) s = .next t ∧
      (reached → s.drillStarted t d (s.now + dt + lag.toNat)) ∧ (¬reached → t.fdc = s.fdc)) ∧
  ∀ (s : State) (dt : Nat) (d : Drill) (e : Nat), s.held = false → s.fdc.drill = some d → d.deadline = some e →
    e ≤ s.now + dt →
    let set := s.zm.resolveEvac
    let u := s.elapse dt
    (d.phase = .preAlert →
      ∃ t, exec (.preAlertEnd dt) s = .next t ∧ u.evacuating t d (s.now + dt) ∧
        u.keepsBut t [.za, .csv, .fdc, .counters, .draws]) ∧
    (∀ r, d.phase = .evacuate → s.fdc.roll = some r → sweepsMissing d.prog.sweepMask r.clear ≠ 0 →
      d.prog.holdLimit ≠ 0 →
      ∃ t, exec (.evacuateEnd dt) s = .next t ∧
        t.fdc.drill = some { d with
          phase := .hold, deadline := some (s.now + dt + d.prog.holdLimit * 1000000), evacSet := none } ∧
        t.fdc.roll = some { r with lastPhase := 4 } ∧ (∀ o, ∀ c ∈ (t.out o).claims, c.source ≠ .fdc) ∧
        u.keepsBut t [.za, .csv, .fdc, .counters, .draws]) ∧
    (d.phase = .hold → 0 < d.prog.clearTime →
      ∃ t, exec (.holdLimitExpiry dt) s = .next t ∧
        t.fdc.drill = some { d with
          phase := .allClear, holdLimit := true, deadline := some (s.now + dt + d.prog.clearTime * 1000000),
          evacSet := some set } ∧
        (∀ r, s.fdc.roll = some r → t.fdc.roll = some { r.close with lastPhase := 5 }) ∧
        u.keepsBut t [.za, .csv, .fdc, .counters, .draws]) ∧
    (d.phase = .allClear →
      ∃ t, exec (.allClearPhaseEnd dt) s = .next t ∧ t.fdc.drill = none ∧
        (∀ o, ∀ c ∈ (t.out o).claims, c.source ≠ .fdc) ∧
        (∀ r, s.fdc.roll = some r →
          t.fdc.roll = some { r.close with outcome := if d.holdLimit then .incomplete else .complete }) ∧
        u.keepsBut t [.line, .za, .csv, .fdc, .counters, .draws])

/-- R169, R170, R172: the HOLD key, the progress notice and the sweep presses; the debounce times are held as the model
holds them (assumption log 13). -/
def Obligations.DrillKeysTaken : Prop :=
  ∀ (s : State) (dt : Nat), s.held = false →
    let u := s.elapse dt
    (∀ d, s.fdc.drill = some d → s.fdc.holdKey.readyAt ≤ s.now + dt →
      ∃ t, exec (.holdKeyPress dt) s = .next t ∧ t.fdc.drill = none ∧
        (∀ o, ∀ c ∈ (t.out o).claims, c.source ≠ .fdc) ∧ t.fdc.fire = s.fdc.fire ∧ t.fdc.count = s.fdc.count ∧
        u.keepsBut t [.line, .za, .csv, .fdc, .counters, .draws]) ∧
    (∀ d, s.fdc.drill = some d → d.phase ≠ .armed → d.runStart + (d.progress + 1) * 10000000 ≤ s.now + dt →
      ∃ t, exec (.drillProgress dt) s = .next t ∧
        t.fdc = { s.fdc with drill := some { d with progress := d.progress + 1 } } ∧
        u.keepsBut t [.line, .fdc, .counters] ∧
        (s.mu.node.enables.getLsbD 6 = true → s.line.up.normal.length < 32 →
          ∃ sweeps : Byte, u.noticed t .drill 3 (enc16 d.id.toNat ++ enc8 d.phase.code ++
            enc16 ((s.now + dt - d.runStart) / 1000000) ++ [sweeps]))) ∧
    (∀ (i : Fin 8) r, s.fdc.roll = some r → r.isOpen = true → r.clear[i] = none →
      s.fdc.sweeps[i].readyAt ≤ s.now + dt → (∀ d, s.fdc.drill = some d → d.phase ≠ .hold) →
      ∃ t, exec (.sweepPress dt i) s = .next t ∧
        t.fdc.roll = some { r with clear := r.clear.set i (some (min 65535 ((s.now + dt - r.openedAt) / 1000000))) } ∧
        t.fdc.drill = s.fdc.drill ∧ u.keepsBut t [.fdc])

/-! ## Management (Chapter 10) -/

/-- R177, R179: PING, READ_STATUS and READ_TABLE are replied OK and change nothing of the node but the counters a clear
takes; a drill id that no drill gives is a free value (assumption log 4). -/
def Obligations.RequestsRead : Prop :=
  ∀ (s : State) (dt : Nat) (h : Hdr), s.takesRequest dt h →
    let v := s.arrived dt h
    (∃ t b1 b2, exec (.ping dt h) s = .next t ∧
      v.replied t h.tag 1 .ok ([0x2A, 3] ++ enc16 s.mu.addr.toNat ++ enc8 (hopCode v.line.hop) ++
        enc8 s.tb.quality.code ++ enc8 s.fdc.fire.code ++ enc8 (drillCode s.fdc.drill) ++ [b1, b2]) ∧
      (∀ d, s.fdc.drill = some d → [b1, b2] = enc16 d.id.toNat) ∧ v.keepsBut t [.line, .counters, .draws]) ∧
    (∃ t record, exec (.readStatus dt h) s = .next t ∧ v.replied t h.tag 6 .ok record ∧ record.length = 77 ∧
      record.take 2 = enc16 s.mu.addr.toNat ∧ byteAt record 4 = BitVec.ofNat 8 s.tb.quality.code ∧
      (record.drop 12).take 2 = enc16 s.tb.linkDelay ∧ byteAt record 15 = BitVec.ofNat 8 (planCode s.bs.plan) ∧
      byteAt record 67 = BitVec.ofNat 8 s.fdc.fire.code ∧ v.keepsBut t [.line, .counters, .draws]) ∧
    ∀ (space : Byte) (sp : Space) (start : Word16) (count clear : Byte), spaceOf space = some sp → count ≠ 0 →
      start.toNat < sp.records → (clear.getLsbD 0 = true → sp = .counters) →
      let n := min (min count.toNat (sp.records - start.toNat)) (234 / sp.bytes)
      ∃ t, exec (.readTable dt h space start count clear) s = .next t ∧
        v.replied t h.tag 3 .ok ([space] ++ enc16 start.toNat ++ enc8 n ++
          ((((v.count .mgmtRequests).readSpace sp).drop start.toNat).take n).flatten) ∧
        (clear.getLsbD 0 = true → v.consumes h = true →
          ∀ i : Fin 71, t.counters[i] =
            if start.toNat ≤ i.val ∧ i.val < start.toNat + n then 0 else (v.count .mgmtRequests).counters[i]) ∧
        v.keepsBut t [.line, .counters]

/-- R182, R183: SET_ADDR by POS sets the address and stops the unassigned timer; by another selector it is refused. The
unassigned timer's end raises UNASSIGNED while UP is ACTIVE, and the next 5 s follow its due time, also where it is taken late
(the model's choice, assumption log 26). -/
def Obligations.AddressSet : Prop :=
  ∀ (s : State) (dt : Nat) (h : Hdr),
    (∀ addr : Word16, s.takesRequest dt h → h.mode = 1 → 1 ≤ addr.toNat → addr.toNat ≤ 1000 → s.mu.save = none →
      ∃ t, exec (.setAddr dt h addr) s = .next t ∧
        (s.arrived dt h).repliedFirst t h.tag 2 .ok (enc16 addr.toNat) ∧
        t.mu = { s.mu with addr := addr, unassignedEnd := none } ∧
        (s.arrived dt h).keepsBut t [.line, .mu, .counters]) ∧
    (∀ addr : Word16, s.takesRequest dt h → h.mode ≠ 1 →
      ∃ t, exec (.setAddr dt h addr) s = .next t ∧ (s.arrived dt h).replied t h.tag 2 .badState [] ∧
        (s.arrived dt h).keepsBut t [.line, .counters]) ∧
    (∀ e, s.held = false → s.mu.unassignedEnd = some e → e ≤ s.now + dt → s.line.up.link = .active →
      s.mu.node.enables.getLsbD 7 = true → s.line.up.normal.length < 32 →
      ∃ t, exec (.unassignedTimerExpiry dt) s = .next t ∧
        (s.elapse dt).noticed t .mgmt 3 [BitVec.ofNat 8 (hopCode s.line.hop)] ∧
        t.mu = { s.mu with unassignedEnd := some (e + 5000000) } ∧ (s.elapse dt).keepsBut t [.line, .mu])

/-- R180 with R59, R62, R63, R43, R93, R159: a WRITE_TABLE of one valid record is replied OK and puts that record into its
place. -/
def Obligations.TablesWritten : Prop :=
  ∀ (s : State) (dt : Nat) (h : Hdr) (start : Word16) (data : List Byte), s.takesRequest dt h → s.mu.save = none →
    let v := s.arrived dt h
    (∀ (x : SchedEntry) (i : Fin 256), start.toNat = i.val → data.length = 14 → decSched data = some x →
      s.bs.active = .a → s.bs.pendingSwap = false →
      ∃ t, exec (.writeSched dt h .b start 1 data) s = .next t ∧ v.replied t h.tag 4 .ok [] ∧
        t.bs = { s.bs with bankB := s.bs.bankB.set i x } ∧ v.keepsBut t [.line, .bs, .counters]) ∧
    (∀ (x : CalendarEntry) (i : Fin 64), start.toNat = i.val → data.length = 4 → decCalendar data = some x →
      ∃ t, exec (.writeCalendar dt h start 1 data) s = .next t ∧ v.repliedFirst t h.tag 4 .ok [] ∧
        t.bs.calendar = s.bs.calendar.set i x ∧ t.bs.week = s.bs.week ∧
        (s.tb.quality ≠ .invalid → t.bs.plan = some (t.bs.planFor s.tb.day)) ∧
        v.keepsBut t [.line, .bs, .counters]) ∧
    (∀ (x : Plan) (i : Fin 7), start.toNat = i.val → data.length = 1 → decPlan (byteAt data 0) = some x →
      ∃ t, exec (.writeWeekplan dt h start 1 data) s = .next t ∧ v.repliedFirst t h.tag 4 .ok [] ∧
        t.bs.week = s.bs.week.set i x ∧ t.bs.calendar = s.bs.calendar ∧
        (s.tb.quality ≠ .invalid → t.bs.plan = some (t.bs.planFor s.tb.day)) ∧
        v.keepsBut t [.line, .bs, .counters]) ∧
    (∀ (x : Window) (i : Fin 8), start.toNat = i.val → data.length = 7 → decWindow data = some x →
      ∃ t, exec (.writeWindows dt h start 1 data) s = .next t ∧ v.replied t h.tag 4 .ok [] ∧
        t.zm = { s.zm with windows := s.zm.windows.set i x } ∧ v.keepsBut t [.line, .zm, .counters]) ∧
    (∀ (x : TonePattern) (i : Fin 16), start.toNat = i.val → data.length = 42 → decTone data = some x →
      ∃ t, exec (.writeTones dt h start 1 data) s = .next t ∧ v.replied t h.tag 4 .ok [] ∧
        t.za = { s.za with tones := s.za.tones.set i x } ∧ v.keepsBut t [.line, .za, .counters]) ∧
    (∀ (x : DrillProg) (i : Fin 4), start.toNat = i.val → data.length = 11 → decDrill data = some x →
      ∃ t, exec (.writeDrillprog dt h start 1 data) s = .next t ∧ v.replied t h.tag 4 .ok [] ∧
        t.fdc = { s.fdc with programs := s.fdc.programs.set i x } ∧ v.keepsBut t [.line, .fdc, .counters])

/-- R180 with R45, R118, R140, R181: the same for the spaces whose owner acts on the change at once. -/
def Obligations.SettingsWritten : Prop :=
  ∀ (s : State) (dt : Nat) (h : Hdr) (start : Word16) (data : List Byte), s.takesRequest dt h → s.mu.save = none →
    let v := s.arrived dt h
    (∀ (x : ZoneAttr) (i : Output), start.toNat = i.val → data.length = 7 → decAttr i.val data = some x →
      ∃ t, exec (.writeZoneattr dt h start 1 data) s = .next t ∧ v.replied t h.tag 4 .ok [] ∧
        t.zm = { s.zm with attrs := s.zm.attrs.set i x } ∧ (∀ o, (t.out o).claims = (s.out o).claims) ∧
        v.keepsBut t [.line, .zm, .za, .csv, .counters, .draws]) ∧
    (∀ (x : ClockCfg) (i : LineNo), start.toNat = i.val → data.length = 9 → decClock data = some x →
      ∃ t, exec (.writeClockcfg dt h start 1 data) s = .next t ∧ v.repliedFirst t h.tag 4 .ok [] ∧
        t.cld.cfg = s.cld.cfg.set i x ∧
        (x.type ≠ (s.clockCfg i).type → (s.clockLine i).pulse = none →
          (t.retained i).position = none ∧ (t.retained i).valid = false ∧ (t.retained i).type = x.type.kept) ∧
        (x.type = (s.clockCfg i).type → t.rs = s.rs) ∧
        v.keepsBut t [.line, .cld, .csv, .rs, .counters, .draws]) ∧
    (∀ (x : SupCfg) (i : Circuit), start.toNat = i.val → data.length = 7 → decSup i.val data = some x →
      ∃ t, exec (.writeSupcfg dt h start 1 data) s = .next t ∧ v.repliedFirst t h.tag 4 .ok [] ∧
        t.csv.cfg = s.csv.cfg.set i x ∧ (∀ c, c ≠ i → t.circ c = s.circ c) ∧
        ((s.supCfg i).enabled = true → x.enabled = false → t.circ i = CircRecord.fresh) ∧
        ((s.supCfg i).enabled = x.enabled → t.circ i = s.circ i) ∧
        v.keepsBut t [.line, .za, .cld, .csv, .counters, .draws]) ∧
    (∀ x : NodeCfg, start = 0 → data.length = 17 → decNode data = some x →
      ∃ t, exec (.writeNodecfg dt h start 1 data) s = .next t ∧ v.replied t h.tag 4 .ok [] ∧
        t.mu = { s.mu with node := x } ∧
        t.tb = { v.tb with linkDelay := if s.tb.sampleTaken then s.tb.linkDelay else x.linkDelay } ∧
        v.keepsBut t [.line, .tb, .mu, .counters])

/-- R187, R188: a save takes its snapshot at once and is replied at its completion. That the image fails its check from the
request on is the model's reading (assumption log 24). -/
def Obligations.ImageSaved : Prop :=
  ∀ (s : State) (dt : Nat) (h : Hdr),
    (s.takesRequest dt h → s.mu.save = none →
      ∃ t, exec (.saveImage dt h) s = .next t ∧ t.mu = { s.mu with save := some ⟨s.snapshot, h.tag⟩ } ∧
        t.image = none ∧ t.line.up.normal = (s.arrived dt h).line.up.normal ∧
        (s.arrived dt h).keepsBut t [.line, .mu, .image, .counters]) ∧
    (s.takesRequest dt h → s.mu.save.isSome = true →
      ∃ t, exec (.saveImage dt h) s = .next t ∧ (s.arrived dt h).replied t h.tag 10 .busy [] ∧
        (s.arrived dt h).keepsBut t [.line, .counters]) ∧
    (∀ w, s.held = false → s.mu.save = some w → s.line.up.normal.length < 32 →
      ∃ t, exec (.saveComplete dt) s = .next t ∧ t.mu = { s.mu with save := none } ∧ t.image = some w.snapshot ∧
        (s.elapse dt).replied t w.tag 10 .ok [] ∧ (s.elapse dt).keepsBut t [.line, .mu, .image])

/-- R192, R188: a LINE_RESET is replied OK and sets reset pending, or is refused with BUSY during a save; while reset
pending is set a request is refused with BUSY. Where the loss of UP is taken before the request, the reply waits at the ABSENT
port (which is taken first is an operand, the model's choice, assumption log 8). -/
def Obligations.LineResetAsked : Prop :=
  ∀ (s : State) (dt : Nat) (h : Hdr),
    let v := s.arrived dt h
    (s.takesRequest dt h → s.mu.save = none →
      ∃ t, exec (.lineReset dt ⟨h, false⟩) s = .next t ∧ t.mu = { s.mu with resetPending := true } ∧
        t.line.up.normal = v.line.up.normal ++ [⟨replyFrame h.tag 11 .ok [], none, .resetReply⟩] ∧
        v.keepsBut t [.line, .mu, .counters]) ∧
    (s.takesRequest dt h → s.mu.save.isSome = true →
      ∃ t, exec (.lineReset dt ⟨h, false⟩) s = .next t ∧ v.replied t h.tag 11 .busy [] ∧ v.keepsBut t [.line, .counters]) ∧
    (s.canHear .up → h.port = .up → v.selected h = true → s.mu.resetPending = true → v.hasRoom .upNormal = true →
      ∀ p ∈ [((.ping dt h : Instr), (1 : Byte)), (.activateBank dt h, 5), (.readStatus dt h, 6), (.saveImage dt h, 10),
          (.lineReset dt ⟨h, false⟩, 11)],
        ∃ t, exec p.1 s = .next t ∧ v.replied t h.tag p.2 .busy [] ∧ v.keepsBut t [.line, .counters]) ∧
    (s.canHear .up → h.port = .up → v.selected h = true → s.mu.resetPending = false → s.mu.save = none →
      (∀ i ∈ s.line.up.express ++ s.line.up.normal, i.origin ≠ .resetReply) →
      ∃ t, exec (.lineReset dt ⟨h, true⟩) s = .next t ∧ t.mu = { s.mu with resetPending := true } ∧
        t.line.up.link = .absent ∧ t.line.up.rx = none ∧ t.line.up.express = [] ∧
        (∃ l, (s.mu.node.enables.getLsbD 0 = false ∨ v.line.hop = s.line.hop → l = []) ∧
          (∀ i ∈ l, i.frame.kind = 0x42) ∧
          t.line.up.normal = l ++ [⟨replyFrame h.tag 11 .ok [], none, .resetReply⟩]) ∧
        (∀ r, t.call r = none) ∧ t.tb = { v.tb with echo := .idle, echoPeriod := none } ∧
        (s.elapse dt).keepsBut t [.line, .tb, .pe, .za, .csv, .mu, .counters, .draws])

/-- R176, R180: a request that is none of the table's, or does not hold its arguments, is refused with BAD_RANGE, and a
WRITE_TABLE of an unknown or read-only space with BAD_SPACE; neither is acted on. -/
def Obligations.RequestsRefused : Prop :=
  ∀ (s : State) (dt : Nat) (h : Hdr), s.takesRequest dt h →
    let v := s.arrived dt h
    (∀ (c : Byte) (rest : List Byte), rest.length ≤ 239 → holdsRequest (c :: rest) = false →
      ∃ t, exec (.unknownRequest dt h (c :: rest)) s = .next t ∧ v.replied t h.tag c .badRange [] ∧
        v.keepsBut t [.line, .counters, .draws]) ∧
    ∀ (space : Byte) (start : Word16) (count : Byte) (data : List Byte), 11 ≤ space.toNat → data.length ≤ 235 →
      ∃ t, exec (.writeTableBadSpace dt h space start count data) s = .next t ∧ v.replied t h.tag 4 .badSpace [] ∧
        v.keepsBut t [.line, .counters]

/-- R191, R189, R190, R20: the node held in reset, its release, and the loss of the backup supply. A full reset may come to a
running node (the model's choice, assumption log 16); no frame is on the line and none was before it (assumption log 32); a
lost store is held as a failed check value (assumption log 19); the backup supply is held present or absent, and its presence
at the release is an operand (assumption log 40); main power that has fallen is absent until the release (assumption log 47).
A valid image is loaded part by part, a part with a record that fails its checks (as the model reads them, assumption log 30)
taking its factory values. -/
def Obligations.ResetsTaken : Prop :=
  ∀ (s : State) (dt : Nat),
    (∀ w, ∃ t, exec (.resetHeld dt w) s = .next t ∧ t.held = true ∧ t.line = Line.reset ∧ t.mu.save = none ∧
      (∀ r, t.call r = none) ∧ (∀ k, (t.clockLine k).pulse = none) ∧ (∀ o, t.out o = OutputState.reset) ∧
      (w = .power → t.mainPower = false) ∧ (w = .pin → t.mainPower = s.mainPower) ∧
      (t.mainPower = true ∨ s.rs.supply = true → t.rs = s.rs) ∧
      (t.mainPower = false → s.rs.supply = false → t.rs = { s.rs with checkOk := false }) ∧
      t.image = (if s.mu.save.isSome then none else s.image)) ∧
    (∀ key sweeps supply, ∃ t, exec (.fullReset dt ⟨key, supply⟩ sweeps) s = .next t ∧ t.held = false ∧ t.mainPower = true ∧
      t.line.up.link = .absent ∧ t.line.down = Port.reset ∧ t.line.hop = none ∧ (∀ r, t.call r = none) ∧
      (∀ o, t.out o = OutputState.reset) ∧ t.zm.sel = Vector.replicate 24 false ∧ t.fdc.fire = .quiet ∧
      t.fdc.drill = none ∧ t.fdc.roll = none ∧ t.bs.active = .a ∧ t.bs.bankB = emptyBank ∧ t.bs.pendingSwap = false ∧
      t.image = s.image ∧ t.tb.us = 0 ∧ t.rs.supply = supply ∧
      (s.rs.checkOk = true → s.rs.timeWritten = true →
        t.tb.quality = .backup ∧ t.tb.day = s.rs.day ∧ t.tb.ms = s.rs.second * 1000) ∧
      (s.rs.checkOk = false ∨ s.rs.timeWritten = false →
        t.tb.quality = .invalid ∧ t.tb.day = 0 ∧ t.tb.ms = 0 ∧ t.rs.checkOk = true ∧
        t.rs.timeWritten = false ∧ t.rs.day = 0 ∧ t.rs.second = 0) ∧
      (s.image = none → t.mu.addr = 0 ∧ t.mu.node = NodeCfg.factory ∧ t.bs.bankA = emptyBank ∧
        t.mu.imageResult = .factory) ∧
      ∀ img, s.image = some img →
        let m := t.mu.factoryMask
        partLoaded m 0 (img.addr.toNat ≤ 1000) t.mu.addr img.addr 0 ∧
        partLoaded m 1 (recordsPass (fun _ => decSched) encSched img.sched ∧ firstOutOfOrder img.sched = none)
          t.bs.bankA img.sched emptyBank ∧
        partLoaded m 3 (recordsPass (fun _ => decCalendar) encCalendar img.calendar)
          t.bs.calendar img.calendar (Vector.replicate 64 .factory) ∧
        partLoaded m 4 (recordsPass (fun _ => decWeek) encWeek img.week) t.bs.week img.week (Vector.replicate 7 .noBells) ∧
        partLoaded m 5 (recordsPass (fun _ => decWindow) encWindow img.windows)
          t.zm.windows img.windows (Vector.replicate 8 .factory) ∧
        partLoaded m 6 (recordsPass decAttr encAttr img.attrs) t.zm.attrs img.attrs factoryAttrs ∧
        partLoaded m 7 (recordsPass (fun _ => decTone) encTone img.tones)
          t.za.tones img.tones (Vector.replicate 16 .factory) ∧
        partLoaded m 8 (recordsPass (fun _ => decClock) encClock img.clocks)
          t.cld.cfg img.clocks (Vector.replicate 8 .factory) ∧
        partLoaded m 9 (recordsPass decSup encSup img.sups) t.csv.cfg img.sups (Vector.replicate 32 .factory) ∧
        partLoaded m 10 (recordsPass (fun _ => decDrill) encDrill img.drills)
          t.fdc.programs img.drills (Vector.replicate 4 .factory) ∧
        partLoaded m 11 (decNode (encNode img.node) = some img.node) t.mu.node img.node NodeCfg.factory ∧
        (m = 0 → t.mu.imageResult = .loaded) ∧ (m ≠ 0 → t.mu.imageResult = .someFactory)) ∧
    (s.mainPower = false →
      exec (.backupSupplyLoss dt) s =
        .next { s.elapse dt with rs := { s.rs with supply := false, checkOk := false } }) ∧
    (s.mainPower = true →
      exec (.backupSupplyLoss dt) s = .next { s.elapse dt with rs := { s.rs with supply := false } })

/-! ## Invariants -/

/-- Chapter 1: every step keeps the ranges of the Timebase, holds INVALID at 0 (R1) and runs the TIME timeout in SYNCED only
(R14). -/
def Obligations.TimeStaysLegal : Prop :=
  ∀ s t : State, s.TimeLegal → step s = .next t → t.TimeLegal

/-- R37, Conventions, R98, R106: no step takes a queue past its capacity, a counter past 65,535, a FIFO past eight frames, or
two calls onto one channel. -/
def Obligations.CapacitiesKept : Prop :=
  ∀ s t : State, step s = .next t →
    (s.queuesBounded → t.queuesBounded) ∧ (s.countersBounded → t.countersBounded) ∧ (s.callsLegal → t.callsLegal)

/-- R81, R82, R84, R89: after every step each output holds at most one claim of a source, its winner is the one that the
choice of winner gives with the claims, the force state and the mutes as they stand, and an isolated output and one without
winner play nothing. -/
def Obligations.WinnersStayChosen : Prop :=
  ∀ s t : State, s.claimsDistinct → s.winnersChosen → s.silencesKept → step s = .next t →
    t.claimsDistinct ∧ t.winnersChosen ∧ t.silencesKept

/-- The state after reset (the model's choice of a part, assumption log 22) meets the invariants. -/
def Obligations.ResetMeetsInvariants : Prop :=
  State.reset.TimeLegal ∧ State.reset.queuesBounded ∧ State.reset.countersBounded ∧ State.reset.callsLegal ∧
    State.reset.claimsDistinct ∧ State.reset.winnersChosen ∧ State.reset.silencesKept
end

