-- ==== Sys2Proof/Laws/State.lean ====
section
/-! SUPPORT. What each update of the state leaves as it was, and what a reading after a writing gives. Each theorem that ends
in _keeps names the parts of State its operation never changes. -/

namespace Sys2Proof.Machine

@[simp] theorem State.setPort_keeps (s : State) (p : PortId) (v : Port) :
    (s.setPort p v).now = s.now ∧
    (s.setPort p v).held = s.held ∧
    (s.setPort p v).mainPower = s.mainPower ∧
    (s.setPort p v).tb = s.tb ∧
    (s.setPort p v).zm = s.zm ∧
    (s.setPort p v).bs = s.bs ∧
    (s.setPort p v).za = s.za ∧
    (s.setPort p v).pe = s.pe ∧
    (s.setPort p v).cld = s.cld ∧
    (s.setPort p v).csv = s.csv ∧
    (s.setPort p v).fdc = s.fdc ∧
    (s.setPort p v).mu = s.mu ∧
    (s.setPort p v).rs = s.rs ∧
    (s.setPort p v).image = s.image ∧
    (s.setPort p v).counters = s.counters ∧
    (s.setPort p v).draws = s.draws ∧
    (s.setPort p v).pending = s.pending := by
  cases p <;> (refine ⟨?_, ?_, ?_, ?_, ?_, ?_, ?_, ?_, ?_, ?_, ?_, ?_, ?_, ?_, ?_, ?_, ?_⟩ <;> rfl)

@[simp] theorem State.setQueue_keeps (s : State) (q : QueueId) (l : List QItem) :
    (s.setQueue q l).now = s.now ∧
    (s.setQueue q l).held = s.held ∧
    (s.setQueue q l).mainPower = s.mainPower ∧
    (s.setQueue q l).tb = s.tb ∧
    (s.setQueue q l).zm = s.zm ∧
    (s.setQueue q l).bs = s.bs ∧
    (s.setQueue q l).za = s.za ∧
    (s.setQueue q l).pe = s.pe ∧
    (s.setQueue q l).cld = s.cld ∧
    (s.setQueue q l).csv = s.csv ∧
    (s.setQueue q l).fdc = s.fdc ∧
    (s.setQueue q l).mu = s.mu ∧
    (s.setQueue q l).rs = s.rs ∧
    (s.setQueue q l).image = s.image ∧
    (s.setQueue q l).counters = s.counters ∧
    (s.setQueue q l).draws = s.draws ∧
    (s.setQueue q l).pending = s.pending := by
  cases q <;> (refine ⟨?_, ?_, ?_, ?_, ?_, ?_, ?_, ?_, ?_, ?_, ?_, ?_, ?_, ?_, ?_, ?_, ?_⟩ <;> rfl)

@[simp] theorem State.setOut_keeps (s : State) (o : Output) (v : OutputState) :
    (s.setOut o v).now = s.now ∧
    (s.setOut o v).held = s.held ∧
    (s.setOut o v).mainPower = s.mainPower ∧
    (s.setOut o v).line = s.line ∧
    (s.setOut o v).tb = s.tb ∧
    (s.setOut o v).zm = s.zm ∧
    (s.setOut o v).bs = s.bs ∧
    (s.setOut o v).pe = s.pe ∧
    (s.setOut o v).cld = s.cld ∧
    (s.setOut o v).csv = s.csv ∧
    (s.setOut o v).fdc = s.fdc ∧
    (s.setOut o v).mu = s.mu ∧
    (s.setOut o v).rs = s.rs ∧
    (s.setOut o v).image = s.image ∧
    (s.setOut o v).counters = s.counters ∧
    (s.setOut o v).draws = s.draws ∧
    (s.setOut o v).pending = s.pending := by
  refine ⟨?_, ?_, ?_, ?_, ?_, ?_, ?_, ?_, ?_, ?_, ?_, ?_, ?_, ?_, ?_, ?_, ?_⟩ <;> rfl

@[simp] theorem State.setCall_keeps (s : State) (r : Fin 8) (c : Option Call) :
    (s.setCall r c).now = s.now ∧
    (s.setCall r c).held = s.held ∧
    (s.setCall r c).mainPower = s.mainPower ∧
    (s.setCall r c).line = s.line ∧
    (s.setCall r c).tb = s.tb ∧
    (s.setCall r c).zm = s.zm ∧
    (s.setCall r c).bs = s.bs ∧
    (s.setCall r c).za = s.za ∧
    (s.setCall r c).cld = s.cld ∧
    (s.setCall r c).csv = s.csv ∧
    (s.setCall r c).fdc = s.fdc ∧
    (s.setCall r c).mu = s.mu ∧
    (s.setCall r c).rs = s.rs ∧
    (s.setCall r c).image = s.image ∧
    (s.setCall r c).counters = s.counters ∧
    (s.setCall r c).draws = s.draws ∧
    (s.setCall r c).pending = s.pending := by
  refine ⟨?_, ?_, ?_, ?_, ?_, ?_, ?_, ?_, ?_, ?_, ?_, ?_, ?_, ?_, ?_, ?_, ?_⟩ <;> rfl

@[simp] theorem State.setClockLine_keeps (s : State) (k : LineNo) (v : ClockLine) :
    (s.setClockLine k v).now = s.now ∧
    (s.setClockLine k v).held = s.held ∧
    (s.setClockLine k v).mainPower = s.mainPower ∧
    (s.setClockLine k v).line = s.line ∧
    (s.setClockLine k v).tb = s.tb ∧
    (s.setClockLine k v).zm = s.zm ∧
    (s.setClockLine k v).bs = s.bs ∧
    (s.setClockLine k v).za = s.za ∧
    (s.setClockLine k v).pe = s.pe ∧
    (s.setClockLine k v).csv = s.csv ∧
    (s.setClockLine k v).fdc = s.fdc ∧
    (s.setClockLine k v).mu = s.mu ∧
    (s.setClockLine k v).rs = s.rs ∧
    (s.setClockLine k v).image = s.image ∧
    (s.setClockLine k v).counters = s.counters ∧
    (s.setClockLine k v).draws = s.draws ∧
    (s.setClockLine k v).pending = s.pending := by
  refine ⟨?_, ?_, ?_, ?_, ?_, ?_, ?_, ?_, ?_, ?_, ?_, ?_, ?_, ?_, ?_, ?_, ?_⟩ <;> rfl

@[simp] theorem State.setRetained_keeps (s : State) (k : LineNo) (v : Retained) :
    (s.setRetained k v).now = s.now ∧
    (s.setRetained k v).held = s.held ∧
    (s.setRetained k v).mainPower = s.mainPower ∧
    (s.setRetained k v).line = s.line ∧
    (s.setRetained k v).tb = s.tb ∧
    (s.setRetained k v).zm = s.zm ∧
    (s.setRetained k v).bs = s.bs ∧
    (s.setRetained k v).za = s.za ∧
    (s.setRetained k v).pe = s.pe ∧
    (s.setRetained k v).cld = s.cld ∧
    (s.setRetained k v).csv = s.csv ∧
    (s.setRetained k v).fdc = s.fdc ∧
    (s.setRetained k v).mu = s.mu ∧
    (s.setRetained k v).image = s.image ∧
    (s.setRetained k v).counters = s.counters ∧
    (s.setRetained k v).draws = s.draws ∧
    (s.setRetained k v).pending = s.pending := by
  refine ⟨?_, ?_, ?_, ?_, ?_, ?_, ?_, ?_, ?_, ?_, ?_, ?_, ?_, ?_, ?_, ?_, ?_⟩ <;> rfl

@[simp] theorem State.setCirc_keeps (s : State) (c : Circuit) (v : CircRecord) :
    (s.setCirc c v).now = s.now ∧
    (s.setCirc c v).held = s.held ∧
    (s.setCirc c v).mainPower = s.mainPower ∧
    (s.setCirc c v).line = s.line ∧
    (s.setCirc c v).tb = s.tb ∧
    (s.setCirc c v).zm = s.zm ∧
    (s.setCirc c v).bs = s.bs ∧
    (s.setCirc c v).za = s.za ∧
    (s.setCirc c v).pe = s.pe ∧
    (s.setCirc c v).cld = s.cld ∧
    (s.setCirc c v).fdc = s.fdc ∧
    (s.setCirc c v).mu = s.mu ∧
    (s.setCirc c v).rs = s.rs ∧
    (s.setCirc c v).image = s.image ∧
    (s.setCirc c v).counters = s.counters ∧
    (s.setCirc c v).draws = s.draws ∧
    (s.setCirc c v).pending = s.pending := by
  refine ⟨?_, ?_, ?_, ?_, ?_, ?_, ?_, ?_, ?_, ?_, ?_, ?_, ?_, ?_, ?_, ?_, ?_⟩ <;> rfl

@[simp] theorem State.setScan_keeps (s : State) (v : Scan) :
    (s.setScan v).now = s.now ∧
    (s.setScan v).held = s.held ∧
    (s.setScan v).mainPower = s.mainPower ∧
    (s.setScan v).line = s.line ∧
    (s.setScan v).tb = s.tb ∧
    (s.setScan v).zm = s.zm ∧
    (s.setScan v).bs = s.bs ∧
    (s.setScan v).za = s.za ∧
    (s.setScan v).pe = s.pe ∧
    (s.setScan v).cld = s.cld ∧
    (s.setScan v).fdc = s.fdc ∧
    (s.setScan v).mu = s.mu ∧
    (s.setScan v).rs = s.rs ∧
    (s.setScan v).image = s.image ∧
    (s.setScan v).counters = s.counters ∧
    (s.setScan v).draws = s.draws ∧
    (s.setScan v).pending = s.pending := by
  refine ⟨?_, ?_, ?_, ?_, ?_, ?_, ?_, ?_, ?_, ?_, ?_, ?_, ?_, ?_, ?_, ?_, ?_⟩ <;> rfl

@[simp] theorem State.countN_keeps (s : State) (c : Counter) (k : Nat) :
    (s.countN c k).now = s.now ∧
    (s.countN c k).held = s.held ∧
    (s.countN c k).mainPower = s.mainPower ∧
    (s.countN c k).line = s.line ∧
    (s.countN c k).tb = s.tb ∧
    (s.countN c k).zm = s.zm ∧
    (s.countN c k).bs = s.bs ∧
    (s.countN c k).za = s.za ∧
    (s.countN c k).pe = s.pe ∧
    (s.countN c k).cld = s.cld ∧
    (s.countN c k).csv = s.csv ∧
    (s.countN c k).fdc = s.fdc ∧
    (s.countN c k).mu = s.mu ∧
    (s.countN c k).rs = s.rs ∧
    (s.countN c k).image = s.image ∧
    (s.countN c k).draws = s.draws ∧
    (s.countN c k).pending = s.pending := by
  refine ⟨?_, ?_, ?_, ?_, ?_, ?_, ?_, ?_, ?_, ?_, ?_, ?_, ?_, ?_, ?_, ?_, ?_⟩ <;> rfl

@[simp] theorem State.count_keeps (s : State) (c : Counter) :
    (s.count c).now = s.now ∧
    (s.count c).held = s.held ∧
    (s.count c).mainPower = s.mainPower ∧
    (s.count c).line = s.line ∧
    (s.count c).tb = s.tb ∧
    (s.count c).zm = s.zm ∧
    (s.count c).bs = s.bs ∧
    (s.count c).za = s.za ∧
    (s.count c).pe = s.pe ∧
    (s.count c).cld = s.cld ∧
    (s.count c).csv = s.csv ∧
    (s.count c).fdc = s.fdc ∧
    (s.count c).mu = s.mu ∧
    (s.count c).rs = s.rs ∧
    (s.count c).image = s.image ∧
    (s.count c).draws = s.draws ∧
    (s.count c).pending = s.pending := by
  refine ⟨?_, ?_, ?_, ?_, ?_, ?_, ?_, ?_, ?_, ?_, ?_, ?_, ?_, ?_, ?_, ?_, ?_⟩ <;> rfl

@[simp] theorem State.draw_keeps (s : State) :
    (s.draw.2).now = s.now ∧
    (s.draw.2).held = s.held ∧
    (s.draw.2).mainPower = s.mainPower ∧
    (s.draw.2).line = s.line ∧
    (s.draw.2).tb = s.tb ∧
    (s.draw.2).zm = s.zm ∧
    (s.draw.2).bs = s.bs ∧
    (s.draw.2).za = s.za ∧
    (s.draw.2).pe = s.pe ∧
    (s.draw.2).cld = s.cld ∧
    (s.draw.2).csv = s.csv ∧
    (s.draw.2).fdc = s.fdc ∧
    (s.draw.2).mu = s.mu ∧
    (s.draw.2).rs = s.rs ∧
    (s.draw.2).image = s.image ∧
    (s.draw.2).counters = s.counters ∧
    (s.draw.2).pending = s.pending := by
  refine ⟨?_, ?_, ?_, ?_, ?_, ?_, ?_, ?_, ?_, ?_, ?_, ?_, ?_, ?_, ?_, ?_, ?_⟩ <;> rfl

@[simp] theorem State.withPending_keeps (s : State) (q : List Instr) :
    (s.withPending q).now = s.now ∧
    (s.withPending q).held = s.held ∧
    (s.withPending q).mainPower = s.mainPower ∧
    (s.withPending q).line = s.line ∧
    (s.withPending q).tb = s.tb ∧
    (s.withPending q).zm = s.zm ∧
    (s.withPending q).bs = s.bs ∧
    (s.withPending q).za = s.za ∧
    (s.withPending q).pe = s.pe ∧
    (s.withPending q).cld = s.cld ∧
    (s.withPending q).csv = s.csv ∧
    (s.withPending q).fdc = s.fdc ∧
    (s.withPending q).mu = s.mu ∧
    (s.withPending q).rs = s.rs ∧
    (s.withPending q).image = s.image ∧
    (s.withPending q).counters = s.counters ∧
    (s.withPending q).draws = s.draws := by
  refine ⟨?_, ?_, ?_, ?_, ?_, ?_, ?_, ?_, ?_, ?_, ?_, ?_, ?_, ?_, ?_, ?_, ?_⟩ <;> rfl

@[simp] theorem State.withPending_pending (s : State) (q : List Instr) : (s.withPending q).pending = q := rfl

@[simp] theorem State.skipsGoOn_keeps (s : State) :
    (s.skipsGoOn).now = s.now ∧
    (s.skipsGoOn).tb = s.tb ∧
    (s.skipsGoOn).held = s.held ∧
    (s.skipsGoOn).mainPower = s.mainPower ∧
    (s.skipsGoOn).line = s.line ∧
    (s.skipsGoOn).zm = s.zm ∧
    (s.skipsGoOn).bs = s.bs ∧
    (s.skipsGoOn).za = s.za ∧
    (s.skipsGoOn).pe = s.pe ∧
    (s.skipsGoOn).cld = s.cld ∧
    (s.skipsGoOn).csv = s.csv ∧
    (s.skipsGoOn).fdc = s.fdc ∧
    (s.skipsGoOn).mu = s.mu ∧
    (s.skipsGoOn).rs = s.rs ∧
    (s.skipsGoOn).image = s.image ∧
    (s.skipsGoOn).pending = s.pending := by
  unfold State.skipsGoOn
  split <;> simp

/-- R142: of the counters only SKIPPED moves as a parked scan goes on, and of a scan that is not parked none. -/
theorem State.skipsGoOn_counter_ne (s : State) {c : Counter} (h : c.index ≠ Counter.skipped.index) :
    s.skipsGoOn.counter c = s.counter c := by
  have : Counter.skipped.index.val ≠ c.index.val := fun e => h (Fin.ext e.symm)
  unfold State.skipsGoOn
  split <;> simp [State.counter, State.countN, State.draw, this]

theorem State.skipsGoOn_of_not_parked (s : State) (h : ∀ c, s.csv.scan ≠ .parked c) : s.skipsGoOn = s := by
  unfold State.skipsGoOn
  split
  · rename_i c hc
    exact absurd hc (h c)
  · rfl
  · rfl

@[simp] theorem State.elapse_keeps (s : State) (dt : Nat) :
    (s.elapse dt).held = s.held ∧
    (s.elapse dt).mainPower = s.mainPower ∧
    (s.elapse dt).line = s.line ∧
    (s.elapse dt).zm = s.zm ∧
    (s.elapse dt).bs = s.bs ∧
    (s.elapse dt).za = s.za ∧
    (s.elapse dt).pe = s.pe ∧
    (s.elapse dt).cld = s.cld ∧
    (s.elapse dt).csv = s.csv ∧
    (s.elapse dt).fdc = s.fdc ∧
    (s.elapse dt).mu = s.mu ∧
    (s.elapse dt).rs = s.rs ∧
    (s.elapse dt).image = s.image ∧
    (s.elapse dt).pending = s.pending := by
  unfold State.elapse
  split <;> simp

@[simp] theorem State.elapse_now (s : State) (dt : Nat) : (s.elapse dt).now = s.now + dt := by
  unfold State.elapse
  split <;> rfl

/-- R1: of the Timebase only the µs since the last tick move as local time passes. -/
@[simp] theorem State.elapse_tb (s : State) (dt : Nat) :
    (s.elapse dt).tb.day = s.tb.day ∧ (s.elapse dt).tb.ms = s.tb.ms ∧ (s.elapse dt).tb.slew = s.tb.slew ∧
    (s.elapse dt).tb.slewCount = s.tb.slewCount ∧ (s.elapse dt).tb.quality = s.tb.quality ∧
    (s.elapse dt).tb.epoch = s.tb.epoch ∧ (s.elapse dt).tb.timeoutEnd = s.tb.timeoutEnd ∧
    (s.elapse dt).tb.linkDelay = s.tb.linkDelay ∧ (s.elapse dt).tb.sampleTaken = s.tb.sampleTaken ∧
    (s.elapse dt).tb.echo = s.tb.echo ∧ (s.elapse dt).tb.echoTag = s.tb.echoTag ∧
    (s.elapse dt).tb.echoPeriod = s.tb.echoPeriod := by
  unfold State.elapse
  split <;> simp

/-- R1: the running node lets dt µs pass. -/
theorem State.elapse_running {s : State} (h : s.held = false) (dt : Nat) :
    s.elapse dt = { s.skipsGoOn with now := s.now + dt, tb := { s.tb with phase := s.tb.phase + dt } } := by
  simp [State.elapse, h]

/-- R1: where the scan is not parked, only the local time and the µs since the last tick move. -/
theorem State.elapse_of_not_parked {s : State} (h : s.held = false) (hp : ∀ c, s.csv.scan ≠ .parked c) (dt : Nat) :
    s.elapse dt = { s with now := s.now + dt, tb := { s.tb with phase := s.tb.phase + dt } } := by
  rw [State.elapse_running h, State.skipsGoOn_of_not_parked s hp]

/-- R191: in reset only the local time moves. -/
theorem State.elapse_held {s : State} (h : s.held = true) (dt : Nat) : s.elapse dt = { s with now := s.now + dt } := by
  simp [State.elapse, h]

/-- R142: of the counters only SKIPPED can move as local time passes. -/
theorem State.elapse_counter_ne (s : State) {c : Counter} (h : c.index ≠ Counter.skipped.index) (dt : Nat) :
    (s.elapse dt).counter c = s.counter c := by
  unfold State.elapse
  split
  · rfl
  · exact s.skipsGoOn_counter_ne h

/-- R1: u is held at 0 in INVALID and lies in 0..999 in every quality. -/
theorem Timebase.us_invalid {tb : Timebase} (h : tb.quality = .invalid) : tb.us = 0 := by simp [Timebase.us, h]

theorem Timebase.us_running {tb : Timebase} (h : tb.quality ≠ .invalid) : tb.us = min 999 tb.phase := by
  simp [Timebase.us, h]

theorem Timebase.us_lt (tb : Timebase) : tb.us < 1000 := by
  unfold Timebase.us
  split <;> omega

/-! ## Reading after writing -/

@[simp] theorem State.port_setPort_self (s : State) (p : PortId) (v : Port) : (s.setPort p v).port p = v := by
  cases p <;> rfl

theorem State.port_setPort_ne (s : State) {p q : PortId} (v : Port) (h : q ≠ p) :
    (s.setPort p v).port q = s.port q := by
  cases p <;> cases q <;> first | rfl | exact absurd rfl h

@[simp] theorem State.queue_setQueue_self (s : State) (q : QueueId) (l : List QItem) : (s.setQueue q l).queue q = l := by
  cases q <;> rfl

theorem State.queue_setQueue_ne (s : State) {q r : QueueId} (l : List QItem) (h : r ≠ q) :
    (s.setQueue q l).queue r = s.queue r := by
  cases q <;> cases r <;> first | rfl | exact absurd rfl h

@[simp] theorem State.out_setOut_self (s : State) (o : Output) (v : OutputState) : (s.setOut o v).out o = v := by
  simp [State.out, State.setOut]

theorem State.out_setOut_ne (s : State) {o r : Output} (v : OutputState) (h : r ≠ o) :
    (s.setOut o v).out r = s.out r := by
  have : o.val ≠ r.val := fun e => h (Fin.ext e.symm)
  simp [State.out, State.setOut, this]

@[simp] theorem State.call_setCall_self (s : State) (r : Fin 8) (c : Option Call) : (s.setCall r c).call r = c := by
  simp [State.call, State.setCall]

theorem State.call_setCall_ne (s : State) {r k : Fin 8} (c : Option Call) (h : k ≠ r) :
    (s.setCall r c).call k = s.call k := by
  have : r.val ≠ k.val := fun e => h (Fin.ext e.symm)
  simp [State.call, State.setCall, this]

@[simp] theorem State.clockLine_setClockLine_self (s : State) (k : LineNo) (v : ClockLine) :
    (s.setClockLine k v).clockLine k = v := by
  simp [State.clockLine, State.setClockLine]

theorem State.clockLine_setClockLine_ne (s : State) {k l : LineNo} (v : ClockLine) (h : l ≠ k) :
    (s.setClockLine k v).clockLine l = s.clockLine l := by
  have : k.val ≠ l.val := fun e => h (Fin.ext e.symm)
  simp [State.clockLine, State.setClockLine, this]

@[simp] theorem State.retained_setRetained_self (s : State) (k : LineNo) (v : Retained) :
    (s.setRetained k v).retained k = v := by
  simp [State.retained, State.setRetained]

theorem State.retained_setRetained_ne (s : State) {k l : LineNo} (v : Retained) (h : l ≠ k) :
    (s.setRetained k v).retained l = s.retained l := by
  have : k.val ≠ l.val := fun e => h (Fin.ext e.symm)
  simp [State.retained, State.setRetained, this]

@[simp] theorem State.circ_setCirc_self (s : State) (c : Circuit) (v : CircRecord) : (s.setCirc c v).circ c = v := by
  simp [State.circ, State.setCirc]

theorem State.circ_setCirc_ne (s : State) {c d : Circuit} (v : CircRecord) (h : d ≠ c) :
    (s.setCirc c v).circ d = s.circ d := by
  have : c.val ≠ d.val := fun e => h (Fin.ext e.symm)
  simp [State.circ, State.setCirc, this]

@[simp] theorem State.circ_setScan (s : State) (v : Scan) (c : Circuit) : (s.setScan v).circ c = s.circ c := rfl

@[simp] theorem State.setScan_scan (s : State) (v : Scan) : (s.setScan v).csv.scan = v := rfl

/-- Conventions: a counter counts up to 65,535. -/
theorem State.counter_countN_self (s : State) (c : Counter) (k : Nat) :
    (s.countN c k).counter c = min 65535 (s.counter c + k) := by
  simp [State.counter, State.countN, saturate16]

theorem State.counter_countN_ne (s : State) {c d : Counter} (k : Nat) (h : d.index ≠ c.index) :
    (s.countN c k).counter d = s.counter d := by
  have : c.index.val ≠ d.index.val := fun e => h (Fin.ext e.symm)
  simp [State.counter, State.countN, this]

theorem State.counter_count_self (s : State) (c : Counter) : (s.count c).counter c = min 65535 (s.counter c + 1) :=
  s.counter_countN_self c 1

theorem State.counter_count_ne (s : State) {c d : Counter} (h : d.index ≠ c.index) :
    (s.count c).counter d = s.counter d := s.counter_countN_ne 1 h

/-- No two counters share a place. -/
theorem Counter.index_ne {c d : Counter} (h : d ≠ c) : d.index ≠ c.index := by
  intro e
  cases c <;> cases d <;> first | exact absurd rfl h | exact absurd e (by decide)

@[simp] theorem State.counter_setQueue (s : State) (q : QueueId) (l : List QItem) (c : Counter) :
    (s.setQueue q l).counter c = s.counter c := by cases q <;> rfl

@[simp] theorem State.counter_setPort (s : State) (p : PortId) (v : Port) (c : Counter) :
    (s.setPort p v).counter c = s.counter c := by cases p <;> rfl

/-- A fold of operations that each keep a reading keeps the reading. -/
theorem foldl_keeps {α β σ : Type} (f : σ → β) (g : σ → α → σ) (h : ∀ s a, f (g s a) = f s) (l : List α) (s : σ) :
    f (l.foldl g s) = f s := by
  induction l generalizing s with
  | nil => rfl
  | cons a l ih => rw [List.foldl_cons, ih, h]

end Sys2Proof.Machine
end

