-- ==== Sys2Proof/Laws/Keeps.lean ====
section
/-! SUPPORT. What each operation of the blocks leaves as it was: one theorem an operation. -/

namespace Sys2Proof.Machine

/-! ## Queues, notices and replies (R37, R176, R184) -/

@[simp] theorem State.join_keeps (s : State) (q : QueueId) (i : QItem) :
    (s.join q i).now = s.now ∧
    (s.join q i).held = s.held ∧
    (s.join q i).mainPower = s.mainPower ∧
    (s.join q i).tb = s.tb ∧
    (s.join q i).zm = s.zm ∧
    (s.join q i).bs = s.bs ∧
    (s.join q i).za = s.za ∧
    (s.join q i).pe = s.pe ∧
    (s.join q i).cld = s.cld ∧
    (s.join q i).csv = s.csv ∧
    (s.join q i).fdc = s.fdc ∧
    (s.join q i).mu = s.mu ∧
    (s.join q i).rs = s.rs ∧
    (s.join q i).image = s.image ∧
    (s.join q i).draws = s.draws ∧
    (s.join q i).pending = s.pending := by
  unfold State.join
  split <;> simp

@[simp] theorem State.joinDown_keeps (s : State) (q : QueueId) (i : QItem) :
    (s.joinDown q i).now = s.now ∧
    (s.joinDown q i).held = s.held ∧
    (s.joinDown q i).mainPower = s.mainPower ∧
    (s.joinDown q i).tb = s.tb ∧
    (s.joinDown q i).zm = s.zm ∧
    (s.joinDown q i).bs = s.bs ∧
    (s.joinDown q i).za = s.za ∧
    (s.joinDown q i).pe = s.pe ∧
    (s.joinDown q i).cld = s.cld ∧
    (s.joinDown q i).csv = s.csv ∧
    (s.joinDown q i).fdc = s.fdc ∧
    (s.joinDown q i).mu = s.mu ∧
    (s.joinDown q i).rs = s.rs ∧
    (s.joinDown q i).image = s.image ∧
    (s.joinDown q i).draws = s.draws ∧
    (s.joinDown q i).pending = s.pending := by
  unfold State.joinDown
  split <;> simp

@[simp] theorem State.relayUp_keeps (s : State) (f : Frame) :
    (s.relayUp f).now = s.now ∧
    (s.relayUp f).held = s.held ∧
    (s.relayUp f).mainPower = s.mainPower ∧
    (s.relayUp f).tb = s.tb ∧
    (s.relayUp f).zm = s.zm ∧
    (s.relayUp f).bs = s.bs ∧
    (s.relayUp f).za = s.za ∧
    (s.relayUp f).pe = s.pe ∧
    (s.relayUp f).cld = s.cld ∧
    (s.relayUp f).csv = s.csv ∧
    (s.relayUp f).fdc = s.fdc ∧
    (s.relayUp f).mu = s.mu ∧
    (s.relayUp f).rs = s.rs ∧
    (s.relayUp f).image = s.image ∧
    (s.relayUp f).draws = s.draws ∧
    (s.relayUp f).pending = s.pending := by
  unfold State.relayUp
  split <;> simp

@[simp] theorem State.joinOwn_keeps (s : State) (f : Frame) (g : Origin) (c : Counter) :
    (s.joinOwn f g c).now = s.now ∧
    (s.joinOwn f g c).held = s.held ∧
    (s.joinOwn f g c).mainPower = s.mainPower ∧
    (s.joinOwn f g c).tb = s.tb ∧
    (s.joinOwn f g c).zm = s.zm ∧
    (s.joinOwn f g c).bs = s.bs ∧
    (s.joinOwn f g c).za = s.za ∧
    (s.joinOwn f g c).pe = s.pe ∧
    (s.joinOwn f g c).cld = s.cld ∧
    (s.joinOwn f g c).csv = s.csv ∧
    (s.joinOwn f g c).fdc = s.fdc ∧
    (s.joinOwn f g c).mu = s.mu ∧
    (s.joinOwn f g c).rs = s.rs ∧
    (s.joinOwn f g c).image = s.image ∧
    (s.joinOwn f g c).draws = s.draws ∧
    (s.joinOwn f g c).pending = s.pending := by
  unfold State.joinOwn
  split <;> simp

@[simp] theorem State.raise_keeps (s : State) (c : NoticeClass) (k : Nat) (a : List Byte) :
    (s.raise c k a).now = s.now ∧
    (s.raise c k a).held = s.held ∧
    (s.raise c k a).mainPower = s.mainPower ∧
    (s.raise c k a).tb = s.tb ∧
    (s.raise c k a).zm = s.zm ∧
    (s.raise c k a).bs = s.bs ∧
    (s.raise c k a).za = s.za ∧
    (s.raise c k a).pe = s.pe ∧
    (s.raise c k a).cld = s.cld ∧
    (s.raise c k a).csv = s.csv ∧
    (s.raise c k a).fdc = s.fdc ∧
    (s.raise c k a).mu = s.mu ∧
    (s.raise c k a).rs = s.rs ∧
    (s.raise c k a).image = s.image ∧
    (s.raise c k a).draws = s.draws ∧
    (s.raise c k a).pending = s.pending := by
  unfold State.raise
  split <;> simp

@[simp] theorem State.reply_keeps (s : State) (tag req : Byte) (st : Status) (r : List Byte) :
    (s.reply tag req st r).now = s.now ∧
    (s.reply tag req st r).held = s.held ∧
    (s.reply tag req st r).mainPower = s.mainPower ∧
    (s.reply tag req st r).tb = s.tb ∧
    (s.reply tag req st r).zm = s.zm ∧
    (s.reply tag req st r).bs = s.bs ∧
    (s.reply tag req st r).za = s.za ∧
    (s.reply tag req st r).pe = s.pe ∧
    (s.reply tag req st r).cld = s.cld ∧
    (s.reply tag req st r).csv = s.csv ∧
    (s.reply tag req st r).fdc = s.fdc ∧
    (s.reply tag req st r).mu = s.mu ∧
    (s.reply tag req st r).rs = s.rs ∧
    (s.reply tag req st r).image = s.image ∧
    (s.reply tag req st r).draws = s.draws ∧
    (s.reply tag req st r).pending = s.pending := by
  unfold State.reply
  split <;> simp

@[simp] theorem State.ok_keeps (s : State) (tag req : Byte) :
    (s.ok tag req).now = s.now ∧
    (s.ok tag req).held = s.held ∧
    (s.ok tag req).mainPower = s.mainPower ∧
    (s.ok tag req).tb = s.tb ∧
    (s.ok tag req).zm = s.zm ∧
    (s.ok tag req).bs = s.bs ∧
    (s.ok tag req).za = s.za ∧
    (s.ok tag req).pe = s.pe ∧
    (s.ok tag req).cld = s.cld ∧
    (s.ok tag req).csv = s.csv ∧
    (s.ok tag req).fdc = s.fdc ∧
    (s.ok tag req).mu = s.mu ∧
    (s.ok tag req).rs = s.rs ∧
    (s.ok tag req).image = s.image ∧
    (s.ok tag req).draws = s.draws ∧
    (s.ok tag req).pending = s.pending := by
  simp [State.ok]

@[simp] theorem State.copyDown_keeps (s : State) (q : QueueId) (f : Frame) (w : Word32) (g : Origin) :
    (s.copyDown q f w g).now = s.now ∧
    (s.copyDown q f w g).held = s.held ∧
    (s.copyDown q f w g).mainPower = s.mainPower ∧
    (s.copyDown q f w g).tb = s.tb ∧
    (s.copyDown q f w g).zm = s.zm ∧
    (s.copyDown q f w g).bs = s.bs ∧
    (s.copyDown q f w g).za = s.za ∧
    (s.copyDown q f w g).pe = s.pe ∧
    (s.copyDown q f w g).cld = s.cld ∧
    (s.copyDown q f w g).csv = s.csv ∧
    (s.copyDown q f w g).fdc = s.fdc ∧
    (s.copyDown q f w g).mu = s.mu ∧
    (s.copyDown q f w g).rs = s.rs ∧
    (s.copyDown q f w g).image = s.image ∧
    (s.copyDown q f w g).draws = s.draws ∧
    (s.copyDown q f w g).pending = s.pending := by
  simp [State.copyDown]

/-! ## The scan (R141 to R143) -/

@[simp] theorem visit_keeps (last : Circuit) (l : List Circuit) (s : State) :
    (visit last l s).now = s.now ∧ (visit last l s).held = s.held ∧ (visit last l s).mainPower = s.mainPower ∧
    (visit last l s).line = s.line ∧ (visit last l s).tb = s.tb ∧ (visit last l s).zm = s.zm ∧
    (visit last l s).bs = s.bs ∧ (visit last l s).za = s.za ∧ (visit last l s).pe = s.pe ∧
    (visit last l s).cld = s.cld ∧ (visit last l s).fdc = s.fdc ∧ (visit last l s).mu = s.mu ∧
    (visit last l s).rs = s.rs ∧ (visit last l s).image = s.image ∧ (visit last l s).pending = s.pending ∧
    (visit last l s).csv.records = s.csv.records ∧ (visit last l s).csv.cfg = s.csv.cfg := by
  induction l generalizing s last with
  | nil =>
    unfold visit
    simp
    exact ⟨rfl, rfl⟩
  | cons d ds ih =>
    unfold visit
    split
    · simpa using ih d (s.count .skipped)
    · unfold State.startDwell
      simp
      exact ⟨rfl, rfl⟩

@[simp] theorem State.scanNext_keeps (s : State) (c : Circuit) :
    (s.scanNext c).now = s.now ∧
    (s.scanNext c).held = s.held ∧
    (s.scanNext c).mainPower = s.mainPower ∧
    (s.scanNext c).line = s.line ∧
    (s.scanNext c).tb = s.tb ∧
    (s.scanNext c).zm = s.zm ∧
    (s.scanNext c).bs = s.bs ∧
    (s.scanNext c).za = s.za ∧
    (s.scanNext c).pe = s.pe ∧
    (s.scanNext c).cld = s.cld ∧
    (s.scanNext c).fdc = s.fdc ∧
    (s.scanNext c).mu = s.mu ∧
    (s.scanNext c).rs = s.rs ∧
    (s.scanNext c).image = s.image ∧
    (s.scanNext c).pending = s.pending ∧
    (s.scanNext c).csv.records = s.csv.records ∧
    (s.scanNext c).csv.cfg = s.csv.cfg := by
  unfold State.scanNext
  split
  · simp
    exact ⟨rfl, rfl⟩
  · simp

@[simp] theorem State.scanFromLowest_keeps (s : State) :
    (s.scanFromLowest).now = s.now ∧
    (s.scanFromLowest).held = s.held ∧
    (s.scanFromLowest).mainPower = s.mainPower ∧
    (s.scanFromLowest).line = s.line ∧
    (s.scanFromLowest).tb = s.tb ∧
    (s.scanFromLowest).zm = s.zm ∧
    (s.scanFromLowest).bs = s.bs ∧
    (s.scanFromLowest).za = s.za ∧
    (s.scanFromLowest).pe = s.pe ∧
    (s.scanFromLowest).cld = s.cld ∧
    (s.scanFromLowest).fdc = s.fdc ∧
    (s.scanFromLowest).mu = s.mu ∧
    (s.scanFromLowest).rs = s.rs ∧
    (s.scanFromLowest).image = s.image ∧
    (s.scanFromLowest).pending = s.pending ∧
    (s.scanFromLowest).csv.records = s.csv.records ∧
    (s.scanFromLowest).csv.cfg = s.csv.cfg := by
  simp [State.scanFromLowest]

@[simp] theorem settleScan_keeps (s : State) :
    (settleScan s).now = s.now ∧
    (settleScan s).held = s.held ∧
    (settleScan s).mainPower = s.mainPower ∧
    (settleScan s).line = s.line ∧
    (settleScan s).tb = s.tb ∧
    (settleScan s).zm = s.zm ∧
    (settleScan s).bs = s.bs ∧
    (settleScan s).za = s.za ∧
    (settleScan s).pe = s.pe ∧
    (settleScan s).cld = s.cld ∧
    (settleScan s).fdc = s.fdc ∧
    (settleScan s).mu = s.mu ∧
    (settleScan s).rs = s.rs ∧
    (settleScan s).image = s.image ∧
    (settleScan s).pending = s.pending ∧
    (settleScan s).csv.records = s.csv.records ∧
    (settleScan s).csv.cfg = s.csv.cfg := by
  unfold settleScan
  split
  · simp
  · split <;> simp
  · split <;> simp

/-! ## The Zone Arbiter (R81 to R89) -/

@[simp] theorem State.settleClip_keeps (s : State) (o : Output) :
    (s.settleClip o).now = s.now ∧
    (s.settleClip o).held = s.held ∧
    (s.settleClip o).mainPower = s.mainPower ∧
    (s.settleClip o).line = s.line ∧
    (s.settleClip o).tb = s.tb ∧
    (s.settleClip o).zm = s.zm ∧
    (s.settleClip o).bs = s.bs ∧
    (s.settleClip o).pe = s.pe ∧
    (s.settleClip o).cld = s.cld ∧
    (s.settleClip o).csv = s.csv ∧
    (s.settleClip o).fdc = s.fdc ∧
    (s.settleClip o).mu = s.mu ∧
    (s.settleClip o).rs = s.rs ∧
    (s.settleClip o).image = s.image ∧
    (s.settleClip o).draws = s.draws ∧
    (s.settleClip o).pending = s.pending := by
  unfold State.settleClip
  split
  · dsimp only
    split <;> simp
  · simp

@[simp] theorem State.stopPlay_keeps (s : State) (o : Output) :
    (s.stopPlay o).now = s.now ∧
    (s.stopPlay o).held = s.held ∧
    (s.stopPlay o).mainPower = s.mainPower ∧
    (s.stopPlay o).line = s.line ∧
    (s.stopPlay o).tb = s.tb ∧
    (s.stopPlay o).zm = s.zm ∧
    (s.stopPlay o).bs = s.bs ∧
    (s.stopPlay o).pe = s.pe ∧
    (s.stopPlay o).cld = s.cld ∧
    (s.stopPlay o).csv = s.csv ∧
    (s.stopPlay o).fdc = s.fdc ∧
    (s.stopPlay o).mu = s.mu ∧
    (s.stopPlay o).rs = s.rs ∧
    (s.stopPlay o).image = s.image ∧
    (s.stopPlay o).draws = s.draws ∧
    (s.stopPlay o).pending = s.pending := by
  simp [State.stopPlay]

@[simp] theorem State.takeOutput_keeps (s : State) (o : Output) :
    (s.takeOutput o).now = s.now ∧
    (s.takeOutput o).held = s.held ∧
    (s.takeOutput o).mainPower = s.mainPower ∧
    (s.takeOutput o).line = s.line ∧
    (s.takeOutput o).tb = s.tb ∧
    (s.takeOutput o).zm = s.zm ∧
    (s.takeOutput o).bs = s.bs ∧
    (s.takeOutput o).pe = s.pe ∧
    (s.takeOutput o).cld = s.cld ∧
    (s.takeOutput o).csv = s.csv ∧
    (s.takeOutput o).fdc = s.fdc ∧
    (s.takeOutput o).mu = s.mu ∧
    (s.takeOutput o).rs = s.rs ∧
    (s.takeOutput o).image = s.image ∧
    (s.takeOutput o).draws = s.draws ∧
    (s.takeOutput o).pending = s.pending := by
  simp [State.takeOutput]

@[simp] theorem State.rechoose_keeps (s : State) (o : Output) :
    (s.rechoose o).now = s.now ∧
    (s.rechoose o).held = s.held ∧
    (s.rechoose o).mainPower = s.mainPower ∧
    (s.rechoose o).line = s.line ∧
    (s.rechoose o).tb = s.tb ∧
    (s.rechoose o).zm = s.zm ∧
    (s.rechoose o).bs = s.bs ∧
    (s.rechoose o).pe = s.pe ∧
    (s.rechoose o).cld = s.cld ∧
    (s.rechoose o).csv = s.csv ∧
    (s.rechoose o).fdc = s.fdc ∧
    (s.rechoose o).mu = s.mu ∧
    (s.rechoose o).rs = s.rs ∧
    (s.rechoose o).image = s.image ∧
    (s.rechoose o).draws = s.draws ∧
    (s.rechoose o).pending = s.pending := by
  unfold State.rechoose
  split <;> simp

/-- A fold over State keeps each part that its operation keeps. -/
theorem foldl_part {α β : Type} (f : State → β) {g : State → α → State} (h : ∀ s a, f (g s a) = f s) (l : List α)
    (s : State) : f (l.foldl g s) = f s := foldl_keeps f g h l s

@[simp] theorem foldRechoose_keeps (l : List Output) (s : State) :
    (l.foldl State.rechoose s).now = s.now ∧
    (l.foldl State.rechoose s).held = s.held ∧
    (l.foldl State.rechoose s).mainPower = s.mainPower ∧
    (l.foldl State.rechoose s).line = s.line ∧
    (l.foldl State.rechoose s).tb = s.tb ∧
    (l.foldl State.rechoose s).zm = s.zm ∧
    (l.foldl State.rechoose s).bs = s.bs ∧
    (l.foldl State.rechoose s).pe = s.pe ∧
    (l.foldl State.rechoose s).cld = s.cld ∧
    (l.foldl State.rechoose s).csv = s.csv ∧
    (l.foldl State.rechoose s).fdc = s.fdc ∧
    (l.foldl State.rechoose s).mu = s.mu ∧
    (l.foldl State.rechoose s).rs = s.rs ∧
    (l.foldl State.rechoose s).image = s.image ∧
    (l.foldl State.rechoose s).draws = s.draws ∧
    (l.foldl State.rechoose s).pending = s.pending := by
  exact ⟨foldl_part State.now (by intros; simp) _ _,
    foldl_part State.held (by intros; simp) _ _,
    foldl_part State.mainPower (by intros; simp) _ _,
    foldl_part State.line (by intros; simp) _ _,
    foldl_part State.tb (by intros; simp) _ _,
    foldl_part State.zm (by intros; simp) _ _,
    foldl_part State.bs (by intros; simp) _ _,
    foldl_part State.pe (by intros; simp) _ _,
    foldl_part State.cld (by intros; simp) _ _,
    foldl_part State.csv (by intros; simp) _ _,
    foldl_part State.fdc (by intros; simp) _ _,
    foldl_part State.mu (by intros; simp) _ _,
    foldl_part State.rs (by intros; simp) _ _,
    foldl_part State.image (by intros; simp) _ _,
    foldl_part State.draws (by intros; simp) _ _,
    foldl_part State.pending (by intros; simp) _ _⟩

@[simp] theorem rechooseAll_keeps (l : List Output) (s : State) :
    (rechooseAll l s).now = s.now ∧
    (rechooseAll l s).held = s.held ∧
    (rechooseAll l s).mainPower = s.mainPower ∧
    (rechooseAll l s).line = s.line ∧
    (rechooseAll l s).tb = s.tb ∧
    (rechooseAll l s).zm = s.zm ∧
    (rechooseAll l s).bs = s.bs ∧
    (rechooseAll l s).pe = s.pe ∧
    (rechooseAll l s).cld = s.cld ∧
    (rechooseAll l s).fdc = s.fdc ∧
    (rechooseAll l s).mu = s.mu ∧
    (rechooseAll l s).rs = s.rs ∧
    (rechooseAll l s).image = s.image ∧
    (rechooseAll l s).pending = s.pending := by
  simp [rechooseAll]

@[simp] theorem State.dropClaim_keeps (s : State) (w : Source) (o : Output) :
    (s.dropClaim w o).now = s.now ∧
    (s.dropClaim w o).held = s.held ∧
    (s.dropClaim w o).mainPower = s.mainPower ∧
    (s.dropClaim w o).line = s.line ∧
    (s.dropClaim w o).tb = s.tb ∧
    (s.dropClaim w o).zm = s.zm ∧
    (s.dropClaim w o).bs = s.bs ∧
    (s.dropClaim w o).pe = s.pe ∧
    (s.dropClaim w o).cld = s.cld ∧
    (s.dropClaim w o).csv = s.csv ∧
    (s.dropClaim w o).fdc = s.fdc ∧
    (s.dropClaim w o).mu = s.mu ∧
    (s.dropClaim w o).rs = s.rs ∧
    (s.dropClaim w o).image = s.image ∧
    (s.dropClaim w o).draws = s.draws ∧
    (s.dropClaim w o).pending = s.pending := by
  unfold State.dropClaim
  dsimp only
  (repeat' split) <;> simp

@[simp] theorem State.addClaim_keeps (s : State) (c : Claim) (o : Output) :
    (s.addClaim c o).now = s.now ∧
    (s.addClaim c o).held = s.held ∧
    (s.addClaim c o).mainPower = s.mainPower ∧
    (s.addClaim c o).line = s.line ∧
    (s.addClaim c o).tb = s.tb ∧
    (s.addClaim c o).zm = s.zm ∧
    (s.addClaim c o).bs = s.bs ∧
    (s.addClaim c o).pe = s.pe ∧
    (s.addClaim c o).cld = s.cld ∧
    (s.addClaim c o).csv = s.csv ∧
    (s.addClaim c o).fdc = s.fdc ∧
    (s.addClaim c o).mu = s.mu ∧
    (s.addClaim c o).rs = s.rs ∧
    (s.addClaim c o).image = s.image ∧
    (s.addClaim c o).draws = s.draws ∧
    (s.addClaim c o).pending = s.pending := by
  unfold State.addClaim
  dsimp only
  split <;> simp

@[simp] theorem isolationBegins_keeps (s : State) (o : Output) :
    (isolationBegins s o).now = s.now ∧
    (isolationBegins s o).held = s.held ∧
    (isolationBegins s o).mainPower = s.mainPower ∧
    (isolationBegins s o).line = s.line ∧
    (isolationBegins s o).tb = s.tb ∧
    (isolationBegins s o).zm = s.zm ∧
    (isolationBegins s o).bs = s.bs ∧
    (isolationBegins s o).pe = s.pe ∧
    (isolationBegins s o).cld = s.cld ∧
    (isolationBegins s o).fdc = s.fdc ∧
    (isolationBegins s o).mu = s.mu ∧
    (isolationBegins s o).rs = s.rs ∧
    (isolationBegins s o).image = s.image ∧
    (isolationBegins s o).pending = s.pending := by
  simp [isolationBegins]

@[simp] theorem isolationLifted_keeps (s : State) (o : Output) :
    (isolationLifted s o).now = s.now ∧
    (isolationLifted s o).held = s.held ∧
    (isolationLifted s o).mainPower = s.mainPower ∧
    (isolationLifted s o).line = s.line ∧
    (isolationLifted s o).tb = s.tb ∧
    (isolationLifted s o).zm = s.zm ∧
    (isolationLifted s o).bs = s.bs ∧
    (isolationLifted s o).pe = s.pe ∧
    (isolationLifted s o).cld = s.cld ∧
    (isolationLifted s o).fdc = s.fdc ∧
    (isolationLifted s o).mu = s.mu ∧
    (isolationLifted s o).rs = s.rs ∧
    (isolationLifted s o).image = s.image ∧
    (isolationLifted s o).pending = s.pending := by
  simp [isolationLifted]

@[simp] theorem State.outputPhaseEnd_keeps (s : State) (o : Output) :
    (s.outputPhaseEnd o).now = s.now ∧
    (s.outputPhaseEnd o).held = s.held ∧
    (s.outputPhaseEnd o).mainPower = s.mainPower ∧
    (s.outputPhaseEnd o).line = s.line ∧
    (s.outputPhaseEnd o).tb = s.tb ∧
    (s.outputPhaseEnd o).zm = s.zm ∧
    (s.outputPhaseEnd o).bs = s.bs ∧
    (s.outputPhaseEnd o).pe = s.pe ∧
    (s.outputPhaseEnd o).cld = s.cld ∧
    (s.outputPhaseEnd o).fdc = s.fdc ∧
    (s.outputPhaseEnd o).mu = s.mu ∧
    (s.outputPhaseEnd o).rs = s.rs ∧
    (s.outputPhaseEnd o).image = s.image ∧
    (s.outputPhaseEnd o).pending = s.pending := by
  unfold State.outputPhaseEnd
  (repeat' split) <;> simp

@[simp] theorem State.readLevel_keeps (s : State) (r : Fin 8) (o : Output) :
    (s.readLevel r o).now = s.now ∧
    (s.readLevel r o).held = s.held ∧
    (s.readLevel r o).mainPower = s.mainPower ∧
    (s.readLevel r o).line = s.line ∧
    (s.readLevel r o).tb = s.tb ∧
    (s.readLevel r o).zm = s.zm ∧
    (s.readLevel r o).bs = s.bs ∧
    (s.readLevel r o).pe = s.pe ∧
    (s.readLevel r o).cld = s.cld ∧
    (s.readLevel r o).csv = s.csv ∧
    (s.readLevel r o).fdc = s.fdc ∧
    (s.readLevel r o).mu = s.mu ∧
    (s.readLevel r o).rs = s.rs ∧
    (s.readLevel r o).image = s.image ∧
    (s.readLevel r o).counters = s.counters ∧
    (s.readLevel r o).draws = s.draws ∧
    (s.readLevel r o).pending = s.pending := by
  unfold State.readLevel
  (repeat' split) <;> simp

@[simp] theorem foldReadLevel_keeps (r : Fin 8) (l : List Output) (s : State) :
    (l.foldl (fun t o => t.readLevel r o) s).now = s.now ∧
    (l.foldl (fun t o => t.readLevel r o) s).held = s.held ∧
    (l.foldl (fun t o => t.readLevel r o) s).mainPower = s.mainPower ∧
    (l.foldl (fun t o => t.readLevel r o) s).line = s.line ∧
    (l.foldl (fun t o => t.readLevel r o) s).tb = s.tb ∧
    (l.foldl (fun t o => t.readLevel r o) s).zm = s.zm ∧
    (l.foldl (fun t o => t.readLevel r o) s).bs = s.bs ∧
    (l.foldl (fun t o => t.readLevel r o) s).pe = s.pe ∧
    (l.foldl (fun t o => t.readLevel r o) s).cld = s.cld ∧
    (l.foldl (fun t o => t.readLevel r o) s).csv = s.csv ∧
    (l.foldl (fun t o => t.readLevel r o) s).fdc = s.fdc ∧
    (l.foldl (fun t o => t.readLevel r o) s).mu = s.mu ∧
    (l.foldl (fun t o => t.readLevel r o) s).rs = s.rs ∧
    (l.foldl (fun t o => t.readLevel r o) s).image = s.image ∧
    (l.foldl (fun t o => t.readLevel r o) s).counters = s.counters ∧
    (l.foldl (fun t o => t.readLevel r o) s).draws = s.draws ∧
    (l.foldl (fun t o => t.readLevel r o) s).pending = s.pending := by
  exact ⟨foldl_part State.now (by intros; simp) _ _,
    foldl_part State.held (by intros; simp) _ _,
    foldl_part State.mainPower (by intros; simp) _ _,
    foldl_part State.line (by intros; simp) _ _,
    foldl_part State.tb (by intros; simp) _ _,
    foldl_part State.zm (by intros; simp) _ _,
    foldl_part State.bs (by intros; simp) _ _,
    foldl_part State.pe (by intros; simp) _ _,
    foldl_part State.cld (by intros; simp) _ _,
    foldl_part State.csv (by intros; simp) _ _,
    foldl_part State.fdc (by intros; simp) _ _,
    foldl_part State.mu (by intros; simp) _ _,
    foldl_part State.rs (by intros; simp) _ _,
    foldl_part State.image (by intros; simp) _ _,
    foldl_part State.counters (by intros; simp) _ _,
    foldl_part State.draws (by intros; simp) _ _,
    foldl_part State.pending (by intros; simp) _ _⟩

@[simp] theorem State.chimePhaseEnd_keeps (s : State) (r : Fin 8) :
    (s.chimePhaseEnd r).now = s.now ∧
    (s.chimePhaseEnd r).held = s.held ∧
    (s.chimePhaseEnd r).mainPower = s.mainPower ∧
    (s.chimePhaseEnd r).line = s.line ∧
    (s.chimePhaseEnd r).tb = s.tb ∧
    (s.chimePhaseEnd r).zm = s.zm ∧
    (s.chimePhaseEnd r).bs = s.bs ∧
    (s.chimePhaseEnd r).cld = s.cld ∧
    (s.chimePhaseEnd r).csv = s.csv ∧
    (s.chimePhaseEnd r).fdc = s.fdc ∧
    (s.chimePhaseEnd r).mu = s.mu ∧
    (s.chimePhaseEnd r).rs = s.rs ∧
    (s.chimePhaseEnd r).image = s.image ∧
    (s.chimePhaseEnd r).counters = s.counters ∧
    (s.chimePhaseEnd r).draws = s.draws ∧
    (s.chimePhaseEnd r).pending = s.pending := by
  unfold State.chimePhaseEnd
  dsimp only
  (repeat' split) <;> simp

/-! ## The Clock Line Driver (R123 to R132) -/

@[simp] theorem State.enterMode_keeps (s : State) (k : LineNo) (m : ClockMode) (d : Nat) :
    (s.enterMode k m d).now = s.now ∧
    (s.enterMode k m d).held = s.held ∧
    (s.enterMode k m d).mainPower = s.mainPower ∧
    (s.enterMode k m d).tb = s.tb ∧
    (s.enterMode k m d).zm = s.zm ∧
    (s.enterMode k m d).bs = s.bs ∧
    (s.enterMode k m d).za = s.za ∧
    (s.enterMode k m d).pe = s.pe ∧
    (s.enterMode k m d).csv = s.csv ∧
    (s.enterMode k m d).fdc = s.fdc ∧
    (s.enterMode k m d).mu = s.mu ∧
    (s.enterMode k m d).rs = s.rs ∧
    (s.enterMode k m d).image = s.image ∧
    (s.enterMode k m d).draws = s.draws ∧
    (s.enterMode k m d).pending = s.pending := by
  unfold State.enterMode
  dsimp only
  (repeat' split) <;> simp

@[simp] theorem State.startPulse_keeps (s : State) (k : LineNo) :
    (s.startPulse k).now = s.now ∧
    (s.startPulse k).held = s.held ∧
    (s.startPulse k).mainPower = s.mainPower ∧
    (s.startPulse k).line = s.line ∧
    (s.startPulse k).tb = s.tb ∧
    (s.startPulse k).zm = s.zm ∧
    (s.startPulse k).bs = s.bs ∧
    (s.startPulse k).za = s.za ∧
    (s.startPulse k).pe = s.pe ∧
    (s.startPulse k).fdc = s.fdc ∧
    (s.startPulse k).mu = s.mu ∧
    (s.startPulse k).rs = s.rs ∧
    (s.startPulse k).image = s.image ∧
    (s.startPulse k).pending = s.pending := by
  simp [State.startPulse]

@[simp] theorem State.pulseOrWait_keeps (s : State) (k : LineNo) :
    (s.pulseOrWait k).now = s.now ∧
    (s.pulseOrWait k).held = s.held ∧
    (s.pulseOrWait k).mainPower = s.mainPower ∧
    (s.pulseOrWait k).line = s.line ∧
    (s.pulseOrWait k).tb = s.tb ∧
    (s.pulseOrWait k).zm = s.zm ∧
    (s.pulseOrWait k).bs = s.bs ∧
    (s.pulseOrWait k).za = s.za ∧
    (s.pulseOrWait k).pe = s.pe ∧
    (s.pulseOrWait k).fdc = s.fdc ∧
    (s.pulseOrWait k).mu = s.mu ∧
    (s.pulseOrWait k).rs = s.rs ∧
    (s.pulseOrWait k).image = s.image ∧
    (s.pulseOrWait k).pending = s.pending := by
  unfold State.pulseOrWait
  dsimp only
  (repeat' split) <;> simp

@[simp] theorem State.evaluate_keeps (s : State) (k : LineNo) :
    (s.evaluate k).now = s.now ∧
    (s.evaluate k).held = s.held ∧
    (s.evaluate k).mainPower = s.mainPower ∧
    (s.evaluate k).tb = s.tb ∧
    (s.evaluate k).zm = s.zm ∧
    (s.evaluate k).bs = s.bs ∧
    (s.evaluate k).za = s.za ∧
    (s.evaluate k).pe = s.pe ∧
    (s.evaluate k).fdc = s.fdc ∧
    (s.evaluate k).mu = s.mu ∧
    (s.evaluate k).rs = s.rs ∧
    (s.evaluate k).image = s.image ∧
    (s.evaluate k).pending = s.pending := by
  unfold State.evaluate
  dsimp only
  (repeat' split) <;> simp

@[simp] theorem State.endPulse_keeps (s : State) (k : LineNo) (p : Polarity) (b : Bool) :
    (s.endPulse k p b).now = s.now ∧
    (s.endPulse k p b).held = s.held ∧
    (s.endPulse k p b).mainPower = s.mainPower ∧
    (s.endPulse k p b).tb = s.tb ∧
    (s.endPulse k p b).zm = s.zm ∧
    (s.endPulse k p b).bs = s.bs ∧
    (s.endPulse k p b).za = s.za ∧
    (s.endPulse k p b).pe = s.pe ∧
    (s.endPulse k p b).fdc = s.fdc ∧
    (s.endPulse k p b).mu = s.mu ∧
    (s.endPulse k p b).image = s.image ∧
    (s.endPulse k p b).pending = s.pending := by
  unfold State.endPulse
  dsimp only
  split <;> simp

@[simp] theorem State.resync_keeps (s : State) (k : LineNo) (i : Nat) (p : Option Polarity) :
    (s.resync k i p).now = s.now ∧
    (s.resync k i p).held = s.held ∧
    (s.resync k i p).mainPower = s.mainPower ∧
    (s.resync k i p).tb = s.tb ∧
    (s.resync k i p).zm = s.zm ∧
    (s.resync k i p).bs = s.bs ∧
    (s.resync k i p).za = s.za ∧
    (s.resync k i p).pe = s.pe ∧
    (s.resync k i p).fdc = s.fdc ∧
    (s.resync k i p).mu = s.mu ∧
    (s.resync k i p).image = s.image ∧
    (s.resync k i p).pending = s.pending := by
  simp [State.resync]

@[simp] theorem State.typeChange_keeps (s : State) (k : LineNo) :
    (s.typeChange k).now = s.now ∧
    (s.typeChange k).held = s.held ∧
    (s.typeChange k).mainPower = s.mainPower ∧
    (s.typeChange k).tb = s.tb ∧
    (s.typeChange k).zm = s.zm ∧
    (s.typeChange k).bs = s.bs ∧
    (s.typeChange k).za = s.za ∧
    (s.typeChange k).pe = s.pe ∧
    (s.typeChange k).fdc = s.fdc ∧
    (s.typeChange k).mu = s.mu ∧
    (s.typeChange k).image = s.image ∧
    (s.typeChange k).pending = s.pending := by
  unfold State.typeChange
  dsimp only
  split <;> simp

@[simp] theorem State.clockCfgChanged_keeps (k : LineNo) (old : ClockCfg) (s : State) :
    (s.clockCfgChanged k old).now = s.now ∧
    (s.clockCfgChanged k old).held = s.held ∧
    (s.clockCfgChanged k old).mainPower = s.mainPower ∧
    (s.clockCfgChanged k old).tb = s.tb ∧
    (s.clockCfgChanged k old).zm = s.zm ∧
    (s.clockCfgChanged k old).bs = s.bs ∧
    (s.clockCfgChanged k old).za = s.za ∧
    (s.clockCfgChanged k old).pe = s.pe ∧
    (s.clockCfgChanged k old).fdc = s.fdc ∧
    (s.clockCfgChanged k old).mu = s.mu ∧
    (s.clockCfgChanged k old).image = s.image ∧
    (s.clockCfgChanged k old).pending = s.pending := by
  unfold State.clockCfgChanged
  (repeat' split) <;> simp

/-! ## The Circuit Supervisor (R144 to R150) -/

@[simp] theorem State.faultSeen_keeps (s : State) (c : Circuit) :
    (s.faultSeen c).now = s.now ∧
    (s.faultSeen c).held = s.held ∧
    (s.faultSeen c).mainPower = s.mainPower ∧
    (s.faultSeen c).tb = s.tb ∧
    (s.faultSeen c).zm = s.zm ∧
    (s.faultSeen c).bs = s.bs ∧
    (s.faultSeen c).pe = s.pe ∧
    (s.faultSeen c).fdc = s.fdc ∧
    (s.faultSeen c).mu = s.mu ∧
    (s.faultSeen c).rs = s.rs ∧
    (s.faultSeen c).image = s.image ∧
    (s.faultSeen c).pending = s.pending := by
  unfold State.faultSeen
  (repeat' split) <;> simp

@[simp] theorem State.faultLeft_keeps (s : State) (c : Circuit) (b : Bool) :
    (s.faultLeft c b).now = s.now ∧
    (s.faultLeft c b).held = s.held ∧
    (s.faultLeft c b).mainPower = s.mainPower ∧
    (s.faultLeft c b).tb = s.tb ∧
    (s.faultLeft c b).zm = s.zm ∧
    (s.faultLeft c b).bs = s.bs ∧
    (s.faultLeft c b).pe = s.pe ∧
    (s.faultLeft c b).fdc = s.fdc ∧
    (s.faultLeft c b).mu = s.mu ∧
    (s.faultLeft c b).rs = s.rs ∧
    (s.faultLeft c b).image = s.image ∧
    (s.faultLeft c b).pending = s.pending := by
  unfold State.faultLeft
  (repeat' split) <;> simp

@[simp] theorem State.enterFault_keeps (s : State) (c : Circuit) (k : FaultKind) (r : Byte) (i p : Bool) :
    (s.enterFault c k r i p).now = s.now ∧
    (s.enterFault c k r i p).held = s.held ∧
    (s.enterFault c k r i p).mainPower = s.mainPower ∧
    (s.enterFault c k r i p).tb = s.tb ∧
    (s.enterFault c k r i p).zm = s.zm ∧
    (s.enterFault c k r i p).bs = s.bs ∧
    (s.enterFault c k r i p).pe = s.pe ∧
    (s.enterFault c k r i p).fdc = s.fdc ∧
    (s.enterFault c k r i p).mu = s.mu ∧
    (s.enterFault c k r i p).rs = s.rs ∧
    (s.enterFault c k r i p).image = s.image ∧
    (s.enterFault c k r i p).pending = s.pending := by
  simp [State.enterFault]

@[simp] theorem State.leaveFault_keeps (s : State) (c : Circuit) (r : CircRecord) (w : RecoverCause) :
    (s.leaveFault c r w).now = s.now ∧
    (s.leaveFault c r w).held = s.held ∧
    (s.leaveFault c r w).mainPower = s.mainPower ∧
    (s.leaveFault c r w).tb = s.tb ∧
    (s.leaveFault c r w).zm = s.zm ∧
    (s.leaveFault c r w).bs = s.bs ∧
    (s.leaveFault c r w).pe = s.pe ∧
    (s.leaveFault c r w).fdc = s.fdc ∧
    (s.leaveFault c r w).mu = s.mu ∧
    (s.leaveFault c r w).rs = s.rs ∧
    (s.leaveFault c r w).image = s.image ∧
    (s.leaveFault c r w).pending = s.pending := by
  simp [State.leaveFault]

@[simp] theorem State.outOfBand_keeps (s : State) (c : Circuit) (k : FaultKind) (r : Byte) :
    (s.outOfBand c k r).now = s.now ∧
    (s.outOfBand c k r).held = s.held ∧
    (s.outOfBand c k r).mainPower = s.mainPower ∧
    (s.outOfBand c k r).tb = s.tb ∧
    (s.outOfBand c k r).zm = s.zm ∧
    (s.outOfBand c k r).bs = s.bs ∧
    (s.outOfBand c k r).pe = s.pe ∧
    (s.outOfBand c k r).fdc = s.fdc ∧
    (s.outOfBand c k r).mu = s.mu ∧
    (s.outOfBand c k r).rs = s.rs ∧
    (s.outOfBand c k r).image = s.image ∧
    (s.outOfBand c k r).pending = s.pending := by
  unfold State.outOfBand
  dsimp only
  split <;> simp

@[simp] theorem State.faultOutOfBand_keeps (s : State) (c : Circuit) (k : FaultKind) (r : Byte) :
    (s.faultOutOfBand c k r).now = s.now ∧
    (s.faultOutOfBand c k r).held = s.held ∧
    (s.faultOutOfBand c k r).mainPower = s.mainPower ∧
    (s.faultOutOfBand c k r).tb = s.tb ∧
    (s.faultOutOfBand c k r).zm = s.zm ∧
    (s.faultOutOfBand c k r).bs = s.bs ∧
    (s.faultOutOfBand c k r).pe = s.pe ∧
    (s.faultOutOfBand c k r).fdc = s.fdc ∧
    (s.faultOutOfBand c k r).mu = s.mu ∧
    (s.faultOutOfBand c k r).rs = s.rs ∧
    (s.faultOutOfBand c k r).image = s.image ∧
    (s.faultOutOfBand c k r).pending = s.pending := by
  unfold State.faultOutOfBand
  dsimp only
  split <;> simp

@[simp] theorem State.faultInner_keeps (s : State) (c : Circuit) (r : Byte) :
    (s.faultInner c r).now = s.now ∧
    (s.faultInner c r).held = s.held ∧
    (s.faultInner c r).mainPower = s.mainPower ∧
    (s.faultInner c r).tb = s.tb ∧
    (s.faultInner c r).zm = s.zm ∧
    (s.faultInner c r).bs = s.bs ∧
    (s.faultInner c r).pe = s.pe ∧
    (s.faultInner c r).fdc = s.fdc ∧
    (s.faultInner c r).mu = s.mu ∧
    (s.faultInner c r).rs = s.rs ∧
    (s.faultInner c r).image = s.image ∧
    (s.faultInner c r).pending = s.pending := by
  unfold State.faultInner
  dsimp only
  (repeat' split) <;> simp

@[simp] theorem State.judge_keeps (s : State) (c : Circuit) (r : Byte) :
    (s.judge c r).now = s.now ∧
    (s.judge c r).held = s.held ∧
    (s.judge c r).mainPower = s.mainPower ∧
    (s.judge c r).tb = s.tb ∧
    (s.judge c r).zm = s.zm ∧
    (s.judge c r).bs = s.bs ∧
    (s.judge c r).pe = s.pe ∧
    (s.judge c r).fdc = s.fdc ∧
    (s.judge c r).mu = s.mu ∧
    (s.judge c r).rs = s.rs ∧
    (s.judge c r).image = s.image ∧
    (s.judge c r).pending = s.pending := by
  unfold State.judge
  dsimp only
  (repeat' split) <;> simp

@[simp] theorem State.currentFault_keeps (s : State) (k : LineNo) (w : FaultKind) (r : Byte) :
    (s.currentFault k w r).now = s.now ∧
    (s.currentFault k w r).held = s.held ∧
    (s.currentFault k w r).mainPower = s.mainPower ∧
    (s.currentFault k w r).tb = s.tb ∧
    (s.currentFault k w r).zm = s.zm ∧
    (s.currentFault k w r).bs = s.bs ∧
    (s.currentFault k w r).pe = s.pe ∧
    (s.currentFault k w r).fdc = s.fdc ∧
    (s.currentFault k w r).mu = s.mu ∧
    (s.currentFault k w r).rs = s.rs ∧
    (s.currentFault k w r).image = s.image ∧
    (s.currentFault k w r).pending = s.pending := by
  unfold State.currentFault
  dsimp only
  split <;> simp

@[simp] theorem State.disable_keeps (s : State) (c : Circuit) :
    (s.disable c).now = s.now ∧
    (s.disable c).held = s.held ∧
    (s.disable c).mainPower = s.mainPower ∧
    (s.disable c).tb = s.tb ∧
    (s.disable c).zm = s.zm ∧
    (s.disable c).bs = s.bs ∧
    (s.disable c).pe = s.pe ∧
    (s.disable c).fdc = s.fdc ∧
    (s.disable c).mu = s.mu ∧
    (s.disable c).rs = s.rs ∧
    (s.disable c).image = s.image ∧
    (s.disable c).pending = s.pending := by
  unfold State.disable
  split <;> simp

/-! ## The Zone Map (R47, R53) -/

@[simp] theorem State.countResolution_keeps (s : State) (t : Target) (r : Resolved) :
    (s.countResolution t r).now = s.now ∧
    (s.countResolution t r).held = s.held ∧
    (s.countResolution t r).mainPower = s.mainPower ∧
    (s.countResolution t r).line = s.line ∧
    (s.countResolution t r).tb = s.tb ∧
    (s.countResolution t r).zm = s.zm ∧
    (s.countResolution t r).bs = s.bs ∧
    (s.countResolution t r).za = s.za ∧
    (s.countResolution t r).pe = s.pe ∧
    (s.countResolution t r).cld = s.cld ∧
    (s.countResolution t r).csv = s.csv ∧
    (s.countResolution t r).fdc = s.fdc ∧
    (s.countResolution t r).mu = s.mu ∧
    (s.countResolution t r).rs = s.rs ∧
    (s.countResolution t r).image = s.image ∧
    (s.countResolution t r).draws = s.draws ∧
    (s.countResolution t r).pending = s.pending := by
  unfold State.countResolution
  split <;> simp

@[simp] theorem State.takeSelect_keeps (s : State) (p : List Byte) :
    (s.takeSelect p).now = s.now ∧
    (s.takeSelect p).held = s.held ∧
    (s.takeSelect p).mainPower = s.mainPower ∧
    (s.takeSelect p).line = s.line ∧
    (s.takeSelect p).tb = s.tb ∧
    (s.takeSelect p).bs = s.bs ∧
    (s.takeSelect p).za = s.za ∧
    (s.takeSelect p).pe = s.pe ∧
    (s.takeSelect p).cld = s.cld ∧
    (s.takeSelect p).csv = s.csv ∧
    (s.takeSelect p).fdc = s.fdc ∧
    (s.takeSelect p).mu = s.mu ∧
    (s.takeSelect p).rs = s.rs ∧
    (s.takeSelect p).image = s.image ∧
    (s.takeSelect p).draws = s.draws ∧
    (s.takeSelect p).pending = s.pending := by
  unfold State.takeSelect
  dsimp only
  (repeat' split) <;> simp

/-! ## The Fire and Drill Controller (R154 to R175) -/

@[simp] theorem State.setDrill_keeps (s : State) (d : Option Drill) :
    (s.setDrill d).now = s.now ∧
    (s.setDrill d).held = s.held ∧
    (s.setDrill d).mainPower = s.mainPower ∧
    (s.setDrill d).line = s.line ∧
    (s.setDrill d).tb = s.tb ∧
    (s.setDrill d).zm = s.zm ∧
    (s.setDrill d).bs = s.bs ∧
    (s.setDrill d).za = s.za ∧
    (s.setDrill d).pe = s.pe ∧
    (s.setDrill d).cld = s.cld ∧
    (s.setDrill d).csv = s.csv ∧
    (s.setDrill d).mu = s.mu ∧
    (s.setDrill d).rs = s.rs ∧
    (s.setDrill d).image = s.image ∧
    (s.setDrill d).counters = s.counters ∧
    (s.setDrill d).draws = s.draws ∧
    (s.setDrill d).pending = s.pending := by
  simp [State.setDrill]

@[simp] theorem State.setRoll_keeps (s : State) (r : Option RollCall) :
    (s.setRoll r).now = s.now ∧
    (s.setRoll r).held = s.held ∧
    (s.setRoll r).mainPower = s.mainPower ∧
    (s.setRoll r).line = s.line ∧
    (s.setRoll r).tb = s.tb ∧
    (s.setRoll r).zm = s.zm ∧
    (s.setRoll r).bs = s.bs ∧
    (s.setRoll r).za = s.za ∧
    (s.setRoll r).pe = s.pe ∧
    (s.setRoll r).cld = s.cld ∧
    (s.setRoll r).csv = s.csv ∧
    (s.setRoll r).mu = s.mu ∧
    (s.setRoll r).rs = s.rs ∧
    (s.setRoll r).image = s.image ∧
    (s.setRoll r).counters = s.counters ∧
    (s.setRoll r).draws = s.draws ∧
    (s.setRoll r).pending = s.pending := by
  simp [State.setRoll]

@[simp] theorem State.mapRoll_keeps (s : State) (f : RollCall → RollCall) :
    (s.mapRoll f).now = s.now ∧
    (s.mapRoll f).held = s.held ∧
    (s.mapRoll f).mainPower = s.mainPower ∧
    (s.mapRoll f).line = s.line ∧
    (s.mapRoll f).tb = s.tb ∧
    (s.mapRoll f).zm = s.zm ∧
    (s.mapRoll f).bs = s.bs ∧
    (s.mapRoll f).za = s.za ∧
    (s.mapRoll f).pe = s.pe ∧
    (s.mapRoll f).cld = s.cld ∧
    (s.mapRoll f).csv = s.csv ∧
    (s.mapRoll f).mu = s.mu ∧
    (s.mapRoll f).rs = s.rs ∧
    (s.mapRoll f).image = s.image ∧
    (s.mapRoll f).counters = s.counters ∧
    (s.mapRoll f).draws = s.draws ∧
    (s.mapRoll f).pending = s.pending := by
  simp [State.mapRoll]

@[simp] theorem State.setFire_keeps (s : State) (f : FireState) (k : Nat) :
    (s.setFire f k).now = s.now ∧
    (s.setFire f k).held = s.held ∧
    (s.setFire f k).mainPower = s.mainPower ∧
    (s.setFire f k).line = s.line ∧
    (s.setFire f k).tb = s.tb ∧
    (s.setFire f k).zm = s.zm ∧
    (s.setFire f k).bs = s.bs ∧
    (s.setFire f k).za = s.za ∧
    (s.setFire f k).pe = s.pe ∧
    (s.setFire f k).cld = s.cld ∧
    (s.setFire f k).csv = s.csv ∧
    (s.setFire f k).mu = s.mu ∧
    (s.setFire f k).rs = s.rs ∧
    (s.setFire f k).image = s.image ∧
    (s.setFire f k).counters = s.counters ∧
    (s.setFire f k).draws = s.draws ∧
    (s.setFire f k).pending = s.pending := by
  simp [State.setFire]

@[simp] theorem State.moveFire_keeps (s : State) (f : FireState) (k : Nat) :
    (s.moveFire f k).now = s.now ∧
    (s.moveFire f k).held = s.held ∧
    (s.moveFire f k).mainPower = s.mainPower ∧
    (s.moveFire f k).line = s.line ∧
    (s.moveFire f k).tb = s.tb ∧
    (s.moveFire f k).zm = s.zm ∧
    (s.moveFire f k).bs = s.bs ∧
    (s.moveFire f k).za = s.za ∧
    (s.moveFire f k).pe = s.pe ∧
    (s.moveFire f k).cld = s.cld ∧
    (s.moveFire f k).csv = s.csv ∧
    (s.moveFire f k).mu = s.mu ∧
    (s.moveFire f k).rs = s.rs ∧
    (s.moveFire f k).image = s.image ∧
    (s.moveFire f k).counters = s.counters ∧
    (s.moveFire f k).draws = s.draws ∧
    (s.moveFire f k).pending = s.pending := by
  simp [State.moveFire]

@[simp] theorem foldDropClaim_keeps (w : Source) (l : List Output) (s : State) :
    (l.foldl (fun s o => s.dropClaim w o) s).now = s.now ∧
    (l.foldl (fun s o => s.dropClaim w o) s).held = s.held ∧
    (l.foldl (fun s o => s.dropClaim w o) s).mainPower = s.mainPower ∧
    (l.foldl (fun s o => s.dropClaim w o) s).line = s.line ∧
    (l.foldl (fun s o => s.dropClaim w o) s).tb = s.tb ∧
    (l.foldl (fun s o => s.dropClaim w o) s).zm = s.zm ∧
    (l.foldl (fun s o => s.dropClaim w o) s).bs = s.bs ∧
    (l.foldl (fun s o => s.dropClaim w o) s).pe = s.pe ∧
    (l.foldl (fun s o => s.dropClaim w o) s).cld = s.cld ∧
    (l.foldl (fun s o => s.dropClaim w o) s).csv = s.csv ∧
    (l.foldl (fun s o => s.dropClaim w o) s).fdc = s.fdc ∧
    (l.foldl (fun s o => s.dropClaim w o) s).mu = s.mu ∧
    (l.foldl (fun s o => s.dropClaim w o) s).rs = s.rs ∧
    (l.foldl (fun s o => s.dropClaim w o) s).image = s.image ∧
    (l.foldl (fun s o => s.dropClaim w o) s).draws = s.draws ∧
    (l.foldl (fun s o => s.dropClaim w o) s).pending = s.pending := by
  exact ⟨foldl_part State.now (by intros; simp) _ _,
    foldl_part State.held (by intros; simp) _ _,
    foldl_part State.mainPower (by intros; simp) _ _,
    foldl_part State.line (by intros; simp) _ _,
    foldl_part State.tb (by intros; simp) _ _,
    foldl_part State.zm (by intros; simp) _ _,
    foldl_part State.bs (by intros; simp) _ _,
    foldl_part State.pe (by intros; simp) _ _,
    foldl_part State.cld (by intros; simp) _ _,
    foldl_part State.csv (by intros; simp) _ _,
    foldl_part State.fdc (by intros; simp) _ _,
    foldl_part State.mu (by intros; simp) _ _,
    foldl_part State.rs (by intros; simp) _ _,
    foldl_part State.image (by intros; simp) _ _,
    foldl_part State.draws (by intros; simp) _ _,
    foldl_part State.pending (by intros; simp) _ _⟩

@[simp] theorem State.fdcRelease_keeps (s : State) :
    (s.fdcRelease).now = s.now ∧
    (s.fdcRelease).held = s.held ∧
    (s.fdcRelease).mainPower = s.mainPower ∧
    (s.fdcRelease).line = s.line ∧
    (s.fdcRelease).tb = s.tb ∧
    (s.fdcRelease).zm = s.zm ∧
    (s.fdcRelease).bs = s.bs ∧
    (s.fdcRelease).pe = s.pe ∧
    (s.fdcRelease).cld = s.cld ∧
    (s.fdcRelease).csv = s.csv ∧
    (s.fdcRelease).fdc = s.fdc ∧
    (s.fdcRelease).mu = s.mu ∧
    (s.fdcRelease).rs = s.rs ∧
    (s.fdcRelease).image = s.image ∧
    (s.fdcRelease).draws = s.draws ∧
    (s.fdcRelease).pending = s.pending := by
  simp [State.fdcRelease]

@[simp] theorem State.fdcClaims_keeps (s : State) (set : List Output) (c p : Nat) :
    (s.fdcClaims set c p).now = s.now ∧
    (s.fdcClaims set c p).held = s.held ∧
    (s.fdcClaims set c p).mainPower = s.mainPower ∧
    (s.fdcClaims set c p).line = s.line ∧
    (s.fdcClaims set c p).tb = s.tb ∧
    (s.fdcClaims set c p).zm = s.zm ∧
    (s.fdcClaims set c p).bs = s.bs ∧
    (s.fdcClaims set c p).pe = s.pe ∧
    (s.fdcClaims set c p).cld = s.cld ∧
    (s.fdcClaims set c p).csv = s.csv ∧
    (s.fdcClaims set c p).fdc = s.fdc ∧
    (s.fdcClaims set c p).mu = s.mu ∧
    (s.fdcClaims set c p).rs = s.rs ∧
    (s.fdcClaims set c p).image = s.image ∧
    (s.fdcClaims set c p).draws = s.draws ∧
    (s.fdcClaims set c p).pending = s.pending := by
  unfold State.fdcClaims
  dsimp only
  exact ⟨foldl_part State.now (by intros; split <;> simp) _ _,
    foldl_part State.held (by intros; split <;> simp) _ _,
    foldl_part State.mainPower (by intros; split <;> simp) _ _,
    foldl_part State.line (by intros; split <;> simp) _ _,
    foldl_part State.tb (by intros; split <;> simp) _ _,
    foldl_part State.zm (by intros; split <;> simp) _ _,
    foldl_part State.bs (by intros; split <;> simp) _ _,
    foldl_part State.pe (by intros; split <;> simp) _ _,
    foldl_part State.cld (by intros; split <;> simp) _ _,
    foldl_part State.csv (by intros; split <;> simp) _ _,
    foldl_part State.fdc (by intros; split <;> simp) _ _,
    foldl_part State.mu (by intros; split <;> simp) _ _,
    foldl_part State.rs (by intros; split <;> simp) _ _,
    foldl_part State.image (by intros; split <;> simp) _ _,
    foldl_part State.draws (by intros; split <;> simp) _ _,
    foldl_part State.pending (by intros; split <;> simp) _ _⟩

@[simp] theorem State.openRoll_keeps (s : State) (k : RollKind) (i : Word16) (p : Option (Fin 4)) (m : Byte) (n : Nat) :
    (s.openRoll k i p m n).now = s.now ∧
    (s.openRoll k i p m n).held = s.held ∧
    (s.openRoll k i p m n).mainPower = s.mainPower ∧
    (s.openRoll k i p m n).line = s.line ∧
    (s.openRoll k i p m n).tb = s.tb ∧
    (s.openRoll k i p m n).zm = s.zm ∧
    (s.openRoll k i p m n).bs = s.bs ∧
    (s.openRoll k i p m n).za = s.za ∧
    (s.openRoll k i p m n).pe = s.pe ∧
    (s.openRoll k i p m n).cld = s.cld ∧
    (s.openRoll k i p m n).csv = s.csv ∧
    (s.openRoll k i p m n).mu = s.mu ∧
    (s.openRoll k i p m n).rs = s.rs ∧
    (s.openRoll k i p m n).image = s.image ∧
    (s.openRoll k i p m n).counters = s.counters ∧
    (s.openRoll k i p m n).draws = s.draws ∧
    (s.openRoll k i p m n).pending = s.pending := by
  simp [State.openRoll]

@[simp] theorem State.endDrill_keeps (s : State) (d : Drill) (w : DrillOutcome) :
    (s.endDrill d w).now = s.now ∧
    (s.endDrill d w).held = s.held ∧
    (s.endDrill d w).mainPower = s.mainPower ∧
    (s.endDrill d w).tb = s.tb ∧
    (s.endDrill d w).zm = s.zm ∧
    (s.endDrill d w).bs = s.bs ∧
    (s.endDrill d w).pe = s.pe ∧
    (s.endDrill d w).cld = s.cld ∧
    (s.endDrill d w).csv = s.csv ∧
    (s.endDrill d w).mu = s.mu ∧
    (s.endDrill d w).rs = s.rs ∧
    (s.endDrill d w).image = s.image ∧
    (s.endDrill d w).draws = s.draws ∧
    (s.endDrill d w).pending = s.pending := by
  unfold State.endDrill
  dsimp only
  split <;> simp

@[simp] theorem State.enterAllClear_keeps (s : State) (d : Drill) (b : Bool) :
    (s.enterAllClear d b).now = s.now ∧
    (s.enterAllClear d b).held = s.held ∧
    (s.enterAllClear d b).mainPower = s.mainPower ∧
    (s.enterAllClear d b).tb = s.tb ∧
    (s.enterAllClear d b).zm = s.zm ∧
    (s.enterAllClear d b).bs = s.bs ∧
    (s.enterAllClear d b).pe = s.pe ∧
    (s.enterAllClear d b).cld = s.cld ∧
    (s.enterAllClear d b).csv = s.csv ∧
    (s.enterAllClear d b).mu = s.mu ∧
    (s.enterAllClear d b).rs = s.rs ∧
    (s.enterAllClear d b).image = s.image ∧
    (s.enterAllClear d b).draws = s.draws ∧
    (s.enterAllClear d b).pending = s.pending := by
  unfold State.enterAllClear
  dsimp only
  (repeat' split) <;> simp

@[simp] theorem State.enterHold_keeps (s : State) (d : Drill) :
    (s.enterHold d).now = s.now ∧
    (s.enterHold d).held = s.held ∧
    (s.enterHold d).mainPower = s.mainPower ∧
    (s.enterHold d).tb = s.tb ∧
    (s.enterHold d).zm = s.zm ∧
    (s.enterHold d).bs = s.bs ∧
    (s.enterHold d).pe = s.pe ∧
    (s.enterHold d).cld = s.cld ∧
    (s.enterHold d).csv = s.csv ∧
    (s.enterHold d).mu = s.mu ∧
    (s.enterHold d).rs = s.rs ∧
    (s.enterHold d).image = s.image ∧
    (s.enterHold d).draws = s.draws ∧
    (s.enterHold d).pending = s.pending := by
  unfold State.enterHold
  dsimp only
  (repeat' split) <;> simp

@[simp] theorem State.enterEvacuate_keeps (s : State) (d : Drill) :
    (s.enterEvacuate d).now = s.now ∧
    (s.enterEvacuate d).held = s.held ∧
    (s.enterEvacuate d).mainPower = s.mainPower ∧
    (s.enterEvacuate d).tb = s.tb ∧
    (s.enterEvacuate d).zm = s.zm ∧
    (s.enterEvacuate d).bs = s.bs ∧
    (s.enterEvacuate d).pe = s.pe ∧
    (s.enterEvacuate d).cld = s.cld ∧
    (s.enterEvacuate d).csv = s.csv ∧
    (s.enterEvacuate d).mu = s.mu ∧
    (s.enterEvacuate d).rs = s.rs ∧
    (s.enterEvacuate d).image = s.image ∧
    (s.enterEvacuate d).draws = s.draws ∧
    (s.enterEvacuate d).pending = s.pending := by
  simp [State.enterEvacuate]

@[simp] theorem State.startDrill_keeps (s : State) (d : Drill) :
    (s.startDrill d).now = s.now ∧
    (s.startDrill d).held = s.held ∧
    (s.startDrill d).mainPower = s.mainPower ∧
    (s.startDrill d).tb = s.tb ∧
    (s.startDrill d).zm = s.zm ∧
    (s.startDrill d).bs = s.bs ∧
    (s.startDrill d).pe = s.pe ∧
    (s.startDrill d).cld = s.cld ∧
    (s.startDrill d).csv = s.csv ∧
    (s.startDrill d).mu = s.mu ∧
    (s.startDrill d).rs = s.rs ∧
    (s.startDrill d).image = s.image ∧
    (s.startDrill d).draws = s.draws ∧
    (s.startDrill d).pending = s.pending := by
  unfold State.startDrill
  dsimp only
  split <;> simp

@[simp] theorem State.refuseDrill_keeps (s : State) (i : Word16) (w : DrillRefusal) :
    (s.refuseDrill i w).now = s.now ∧
    (s.refuseDrill i w).held = s.held ∧
    (s.refuseDrill i w).mainPower = s.mainPower ∧
    (s.refuseDrill i w).tb = s.tb ∧
    (s.refuseDrill i w).zm = s.zm ∧
    (s.refuseDrill i w).bs = s.bs ∧
    (s.refuseDrill i w).za = s.za ∧
    (s.refuseDrill i w).pe = s.pe ∧
    (s.refuseDrill i w).cld = s.cld ∧
    (s.refuseDrill i w).csv = s.csv ∧
    (s.refuseDrill i w).fdc = s.fdc ∧
    (s.refuseDrill i w).mu = s.mu ∧
    (s.refuseDrill i w).rs = s.rs ∧
    (s.refuseDrill i w).image = s.image ∧
    (s.refuseDrill i w).pending = s.pending := by
  unfold State.refuseDrill
  dsimp only
  split <;> simp

@[simp] theorem State.takeStart_keeps (s : State) (i : Word16) (p : Fin 4) (d : Word16) (t : Nat) :
    (s.takeStart i p d t).now = s.now ∧
    (s.takeStart i p d t).held = s.held ∧
    (s.takeStart i p d t).mainPower = s.mainPower ∧
    (s.takeStart i p d t).tb = s.tb ∧
    (s.takeStart i p d t).zm = s.zm ∧
    (s.takeStart i p d t).bs = s.bs ∧
    (s.takeStart i p d t).pe = s.pe ∧
    (s.takeStart i p d t).cld = s.cld ∧
    (s.takeStart i p d t).mu = s.mu ∧
    (s.takeStart i p d t).rs = s.rs ∧
    (s.takeStart i p d t).image = s.image ∧
    (s.takeStart i p d t).pending = s.pending := by
  unfold State.takeStart
  dsimp only
  split <;> simp

@[simp] theorem State.drillReached_keeps (s : State) (d : Word16) (t : Nat) :
    (s.drillReached d t).now = s.now ∧
    (s.drillReached d t).held = s.held ∧
    (s.drillReached d t).mainPower = s.mainPower ∧
    (s.drillReached d t).tb = s.tb ∧
    (s.drillReached d t).zm = s.zm ∧
    (s.drillReached d t).bs = s.bs ∧
    (s.drillReached d t).pe = s.pe ∧
    (s.drillReached d t).cld = s.cld ∧
    (s.drillReached d t).mu = s.mu ∧
    (s.drillReached d t).rs = s.rs ∧
    (s.drillReached d t).image = s.image ∧
    (s.drillReached d t).pending = s.pending := by
  unfold State.drillReached
  (repeat' split) <;> simp

@[simp] theorem State.takeAbort_keeps (s : State) (i : Word16) :
    (s.takeAbort i).now = s.now ∧
    (s.takeAbort i).held = s.held ∧
    (s.takeAbort i).mainPower = s.mainPower ∧
    (s.takeAbort i).tb = s.tb ∧
    (s.takeAbort i).zm = s.zm ∧
    (s.takeAbort i).bs = s.bs ∧
    (s.takeAbort i).pe = s.pe ∧
    (s.takeAbort i).cld = s.cld ∧
    (s.takeAbort i).mu = s.mu ∧
    (s.takeAbort i).rs = s.rs ∧
    (s.takeAbort i).image = s.image ∧
    (s.takeAbort i).pending = s.pending := by
  unfold State.takeAbort
  (repeat' split) <;> simp

@[simp] theorem State.takeAllClear_keeps (s : State) (i : Word16) :
    (s.takeAllClear i).now = s.now ∧
    (s.takeAllClear i).held = s.held ∧
    (s.takeAllClear i).mainPower = s.mainPower ∧
    (s.takeAllClear i).tb = s.tb ∧
    (s.takeAllClear i).zm = s.zm ∧
    (s.takeAllClear i).bs = s.bs ∧
    (s.takeAllClear i).pe = s.pe ∧
    (s.takeAllClear i).cld = s.cld ∧
    (s.takeAllClear i).mu = s.mu ∧
    (s.takeAllClear i).rs = s.rs ∧
    (s.takeAllClear i).image = s.image ∧
    (s.takeAllClear i).pending = s.pending := by
  unfold State.takeAllClear
  (repeat' split) <;> simp

@[simp] theorem State.enterFire_keeps (s : State) (r : Byte) :
    (s.enterFire r).now = s.now ∧
    (s.enterFire r).held = s.held ∧
    (s.enterFire r).mainPower = s.mainPower ∧
    (s.enterFire r).tb = s.tb ∧
    (s.enterFire r).zm = s.zm ∧
    (s.enterFire r).bs = s.bs ∧
    (s.enterFire r).pe = s.pe ∧
    (s.enterFire r).cld = s.cld ∧
    (s.enterFire r).mu = s.mu ∧
    (s.enterFire r).rs = s.rs ∧
    (s.enterFire r).image = s.image ∧
    (s.enterFire r).pending = s.pending := by
  unfold State.enterFire
  dsimp only
  (repeat' split) <;> simp

@[simp] theorem State.leaveFire_keeps (s : State) :
    (s.leaveFire).now = s.now ∧
    (s.leaveFire).held = s.held ∧
    (s.leaveFire).mainPower = s.mainPower ∧
    (s.leaveFire).tb = s.tb ∧
    (s.leaveFire).zm = s.zm ∧
    (s.leaveFire).bs = s.bs ∧
    (s.leaveFire).pe = s.pe ∧
    (s.leaveFire).cld = s.cld ∧
    (s.leaveFire).mu = s.mu ∧
    (s.leaveFire).rs = s.rs ∧
    (s.leaveFire).image = s.image ∧
    (s.leaveFire).pending = s.pending := by
  unfold State.leaveFire
  dsimp only
  (repeat' split) <;> simp

@[simp] theorem State.fireActive_keeps (s : State) (r : Byte) :
    (s.fireActive r).now = s.now ∧
    (s.fireActive r).held = s.held ∧
    (s.fireActive r).mainPower = s.mainPower ∧
    (s.fireActive r).tb = s.tb ∧
    (s.fireActive r).zm = s.zm ∧
    (s.fireActive r).bs = s.bs ∧
    (s.fireActive r).pe = s.pe ∧
    (s.fireActive r).cld = s.cld ∧
    (s.fireActive r).mu = s.mu ∧
    (s.fireActive r).rs = s.rs ∧
    (s.fireActive r).image = s.image ∧
    (s.fireActive r).pending = s.pending := by
  unfold State.fireActive
  dsimp only
  (repeat' split) <;> simp

@[simp] theorem State.fireInactive_keeps (s : State) :
    (s.fireInactive).now = s.now ∧
    (s.fireInactive).held = s.held ∧
    (s.fireInactive).mainPower = s.mainPower ∧
    (s.fireInactive).tb = s.tb ∧
    (s.fireInactive).zm = s.zm ∧
    (s.fireInactive).bs = s.bs ∧
    (s.fireInactive).pe = s.pe ∧
    (s.fireInactive).cld = s.cld ∧
    (s.fireInactive).mu = s.mu ∧
    (s.fireInactive).rs = s.rs ∧
    (s.fireInactive).image = s.image ∧
    (s.fireInactive).pending = s.pending := by
  unfold State.fireInactive
  dsimp only
  (repeat' split) <;> simp

@[simp] theorem State.fireTroubled_keeps (s : State) (r : Byte) :
    (s.fireTroubled r).now = s.now ∧
    (s.fireTroubled r).held = s.held ∧
    (s.fireTroubled r).mainPower = s.mainPower ∧
    (s.fireTroubled r).tb = s.tb ∧
    (s.fireTroubled r).zm = s.zm ∧
    (s.fireTroubled r).bs = s.bs ∧
    (s.fireTroubled r).za = s.za ∧
    (s.fireTroubled r).pe = s.pe ∧
    (s.fireTroubled r).cld = s.cld ∧
    (s.fireTroubled r).csv = s.csv ∧
    (s.fireTroubled r).mu = s.mu ∧
    (s.fireTroubled r).rs = s.rs ∧
    (s.fireTroubled r).image = s.image ∧
    (s.fireTroubled r).draws = s.draws ∧
    (s.fireTroubled r).pending = s.pending := by
  unfold State.fireTroubled
  dsimp only
  (repeat' split) <;> simp

@[simp] theorem State.troubleEnds_keeps (s : State) (r : Byte) :
    (s.troubleEnds r).now = s.now ∧
    (s.troubleEnds r).held = s.held ∧
    (s.troubleEnds r).mainPower = s.mainPower ∧
    (s.troubleEnds r).tb = s.tb ∧
    (s.troubleEnds r).zm = s.zm ∧
    (s.troubleEnds r).bs = s.bs ∧
    (s.troubleEnds r).za = s.za ∧
    (s.troubleEnds r).pe = s.pe ∧
    (s.troubleEnds r).cld = s.cld ∧
    (s.troubleEnds r).csv = s.csv ∧
    (s.troubleEnds r).mu = s.mu ∧
    (s.troubleEnds r).rs = s.rs ∧
    (s.troubleEnds r).image = s.image ∧
    (s.troubleEnds r).draws = s.draws ∧
    (s.troubleEnds r).pending = s.pending := by
  unfold State.troubleEnds
  dsimp only
  (repeat' split) <;> simp

@[simp] theorem State.fireReading_keeps (s : State) (r : Byte) :
    (s.fireReading r).now = s.now ∧
    (s.fireReading r).held = s.held ∧
    (s.fireReading r).mainPower = s.mainPower ∧
    (s.fireReading r).tb = s.tb ∧
    (s.fireReading r).zm = s.zm ∧
    (s.fireReading r).bs = s.bs ∧
    (s.fireReading r).pe = s.pe ∧
    (s.fireReading r).cld = s.cld ∧
    (s.fireReading r).mu = s.mu ∧
    (s.fireReading r).rs = s.rs ∧
    (s.fireReading r).image = s.image ∧
    (s.fireReading r).pending = s.pending := by
  unfold State.fireReading
  split <;> simp

/-! ## The Bell Scheduler (R61 to R75) -/

@[simp] theorem State.derivePlan_keeps (s : State) (d : Word16) :
    (s.derivePlan d).now = s.now ∧
    (s.derivePlan d).held = s.held ∧
    (s.derivePlan d).mainPower = s.mainPower ∧
    (s.derivePlan d).tb = s.tb ∧
    (s.derivePlan d).zm = s.zm ∧
    (s.derivePlan d).za = s.za ∧
    (s.derivePlan d).pe = s.pe ∧
    (s.derivePlan d).cld = s.cld ∧
    (s.derivePlan d).csv = s.csv ∧
    (s.derivePlan d).fdc = s.fdc ∧
    (s.derivePlan d).mu = s.mu ∧
    (s.derivePlan d).rs = s.rs ∧
    (s.derivePlan d).image = s.image ∧
    (s.derivePlan d).draws = s.draws ∧
    (s.derivePlan d).pending = s.pending := by
  unfold State.derivePlan
  dsimp only
  split <;> simp

@[simp] theorem State.setMark_keeps (s : State) (h : Option Nat) :
    (s.setMark h).now = s.now ∧
    (s.setMark h).held = s.held ∧
    (s.setMark h).mainPower = s.mainPower ∧
    (s.setMark h).line = s.line ∧
    (s.setMark h).tb = s.tb ∧
    (s.setMark h).zm = s.zm ∧
    (s.setMark h).za = s.za ∧
    (s.setMark h).pe = s.pe ∧
    (s.setMark h).cld = s.cld ∧
    (s.setMark h).csv = s.csv ∧
    (s.setMark h).fdc = s.fdc ∧
    (s.setMark h).mu = s.mu ∧
    (s.setMark h).rs = s.rs ∧
    (s.setMark h).image = s.image ∧
    (s.setMark h).counters = s.counters ∧
    (s.setMark h).draws = s.draws ∧
    (s.setMark h).pending = s.pending := by
  simp [State.setMark]

@[simp] theorem foldAddClaim_keeps (c : Claim) (l : List Output) (s : State) :
    (l.foldl (fun s o => s.addClaim c o) s).now = s.now ∧
    (l.foldl (fun s o => s.addClaim c o) s).held = s.held ∧
    (l.foldl (fun s o => s.addClaim c o) s).mainPower = s.mainPower ∧
    (l.foldl (fun s o => s.addClaim c o) s).line = s.line ∧
    (l.foldl (fun s o => s.addClaim c o) s).tb = s.tb ∧
    (l.foldl (fun s o => s.addClaim c o) s).zm = s.zm ∧
    (l.foldl (fun s o => s.addClaim c o) s).bs = s.bs ∧
    (l.foldl (fun s o => s.addClaim c o) s).pe = s.pe ∧
    (l.foldl (fun s o => s.addClaim c o) s).cld = s.cld ∧
    (l.foldl (fun s o => s.addClaim c o) s).csv = s.csv ∧
    (l.foldl (fun s o => s.addClaim c o) s).fdc = s.fdc ∧
    (l.foldl (fun s o => s.addClaim c o) s).mu = s.mu ∧
    (l.foldl (fun s o => s.addClaim c o) s).rs = s.rs ∧
    (l.foldl (fun s o => s.addClaim c o) s).image = s.image ∧
    (l.foldl (fun s o => s.addClaim c o) s).draws = s.draws ∧
    (l.foldl (fun s o => s.addClaim c o) s).pending = s.pending := by
  exact ⟨foldl_part State.now (by intros; simp) _ _,
    foldl_part State.held (by intros; simp) _ _,
    foldl_part State.mainPower (by intros; simp) _ _,
    foldl_part State.line (by intros; simp) _ _,
    foldl_part State.tb (by intros; simp) _ _,
    foldl_part State.zm (by intros; simp) _ _,
    foldl_part State.bs (by intros; simp) _ _,
    foldl_part State.pe (by intros; simp) _ _,
    foldl_part State.cld (by intros; simp) _ _,
    foldl_part State.csv (by intros; simp) _ _,
    foldl_part State.fdc (by intros; simp) _ _,
    foldl_part State.mu (by intros; simp) _ _,
    foldl_part State.rs (by intros; simp) _ _,
    foldl_part State.image (by intros; simp) _ _,
    foldl_part State.draws (by intros; simp) _ _,
    foldl_part State.pending (by intros; simp) _ _⟩

@[simp] theorem State.ring_keeps (s : State) (t : Target) (q : Bool) (p d : Nat) :
    (s.ring t q p d).now = s.now ∧
    (s.ring t q p d).held = s.held ∧
    (s.ring t q p d).mainPower = s.mainPower ∧
    (s.ring t q p d).line = s.line ∧
    (s.ring t q p d).tb = s.tb ∧
    (s.ring t q p d).zm = s.zm ∧
    (s.ring t q p d).bs = s.bs ∧
    (s.ring t q p d).pe = s.pe ∧
    (s.ring t q p d).cld = s.cld ∧
    (s.ring t q p d).fdc = s.fdc ∧
    (s.ring t q p d).mu = s.mu ∧
    (s.ring t q p d).rs = s.rs ∧
    (s.ring t q p d).image = s.image ∧
    (s.ring t q p d).pending = s.pending := by
  unfold State.ring
  dsimp only
  split <;> simp

@[simp] theorem State.fireBell_keeps (s : State) (k : Bool) (t : Target) (q : Bool) (p d : Nat) :
    (s.fireBell k t q p d).now = s.now ∧
    (s.fireBell k t q p d).held = s.held ∧
    (s.fireBell k t q p d).mainPower = s.mainPower ∧
    (s.fireBell k t q p d).line = s.line ∧
    (s.fireBell k t q p d).tb = s.tb ∧
    (s.fireBell k t q p d).zm = s.zm ∧
    (s.fireBell k t q p d).bs = s.bs ∧
    (s.fireBell k t q p d).pe = s.pe ∧
    (s.fireBell k t q p d).cld = s.cld ∧
    (s.fireBell k t q p d).fdc = s.fdc ∧
    (s.fireBell k t q p d).mu = s.mu ∧
    (s.fireBell k t q p d).rs = s.rs ∧
    (s.fireBell k t q p d).image = s.image ∧
    (s.fireBell k t q p d).pending = s.pending := by
  unfold State.fireBell
  (repeat' split) <;> simp

@[simp] theorem State.fireDrillEntry_keeps (s : State) (p : Fin 4) :
    (s.fireDrillEntry p).now = s.now ∧
    (s.fireDrillEntry p).held = s.held ∧
    (s.fireDrillEntry p).mainPower = s.mainPower ∧
    (s.fireDrillEntry p).tb = s.tb ∧
    (s.fireDrillEntry p).zm = s.zm ∧
    (s.fireDrillEntry p).bs = s.bs ∧
    (s.fireDrillEntry p).pe = s.pe ∧
    (s.fireDrillEntry p).cld = s.cld ∧
    (s.fireDrillEntry p).mu = s.mu ∧
    (s.fireDrillEntry p).rs = s.rs ∧
    (s.fireDrillEntry p).image = s.image ∧
    (s.fireDrillEntry p).pending = s.pending := by
  unfold State.fireDrillEntry
  dsimp only
  split <;> simp

@[simp] theorem State.processEntry_keeps (s : State) (i : Fin 256) :
    (s.processEntry i).now = s.now ∧
    (s.processEntry i).held = s.held ∧
    (s.processEntry i).mainPower = s.mainPower ∧
    (s.processEntry i).tb = s.tb ∧
    (s.processEntry i).zm = s.zm ∧
    (s.processEntry i).bs = s.bs ∧
    (s.processEntry i).pe = s.pe ∧
    (s.processEntry i).cld = s.cld ∧
    (s.processEntry i).mu = s.mu ∧
    (s.processEntry i).rs = s.rs ∧
    (s.processEntry i).image = s.image ∧
    (s.processEntry i).pending = s.pending := by
  unfold State.processEntry
  dsimp only
  (repeat' split) <;> simp

@[simp] theorem State.processEntries_keeps (s : State) (l : List (Fin 256)) :
    (s.processEntries l).now = s.now ∧
    (s.processEntries l).held = s.held ∧
    (s.processEntries l).mainPower = s.mainPower ∧
    (s.processEntries l).tb = s.tb ∧
    (s.processEntries l).zm = s.zm ∧
    (s.processEntries l).bs = s.bs ∧
    (s.processEntries l).pe = s.pe ∧
    (s.processEntries l).cld = s.cld ∧
    (s.processEntries l).mu = s.mu ∧
    (s.processEntries l).rs = s.rs ∧
    (s.processEntries l).image = s.image ∧
    (s.processEntries l).pending = s.pending := by
  unfold State.processEntries
  exact ⟨foldl_part State.now (by intros; simp) _ _,
    foldl_part State.held (by intros; simp) _ _,
    foldl_part State.mainPower (by intros; simp) _ _,
    foldl_part State.tb (by intros; simp) _ _,
    foldl_part State.zm (by intros; simp) _ _,
    foldl_part State.bs (by intros; simp) _ _,
    foldl_part State.pe (by intros; simp) _ _,
    foldl_part State.cld (by intros; simp) _ _,
    foldl_part State.mu (by intros; simp) _ _,
    foldl_part State.rs (by intros; simp) _ _,
    foldl_part State.image (by intros; simp) _ _,
    foldl_part State.pending (by intros; simp) _ _⟩

@[simp] theorem State.swapBanks_keeps (s : State) (n : Nat) :
    (s.swapBanks n).now = s.now ∧
    (s.swapBanks n).held = s.held ∧
    (s.swapBanks n).mainPower = s.mainPower ∧
    (s.swapBanks n).tb = s.tb ∧
    (s.swapBanks n).zm = s.zm ∧
    (s.swapBanks n).za = s.za ∧
    (s.swapBanks n).pe = s.pe ∧
    (s.swapBanks n).cld = s.cld ∧
    (s.swapBanks n).csv = s.csv ∧
    (s.swapBanks n).fdc = s.fdc ∧
    (s.swapBanks n).mu = s.mu ∧
    (s.swapBanks n).rs = s.rs ∧
    (s.swapBanks n).image = s.image ∧
    (s.swapBanks n).draws = s.draws ∧
    (s.swapBanks n).pending = s.pending := by
  unfold State.swapBanks
  dsimp only
  split <;> simp

@[simp] theorem State.bellSecond_keeps (s : State) (n : Nat) :
    (s.bellSecond n).now = s.now ∧
    (s.bellSecond n).held = s.held ∧
    (s.bellSecond n).mainPower = s.mainPower ∧
    (s.bellSecond n).tb = s.tb ∧
    (s.bellSecond n).zm = s.zm ∧
    (s.bellSecond n).pe = s.pe ∧
    (s.bellSecond n).cld = s.cld ∧
    (s.bellSecond n).mu = s.mu ∧
    (s.bellSecond n).rs = s.rs ∧
    (s.bellSecond n).image = s.image ∧
    (s.bellSecond n).pending = s.pending := by
  unfold State.bellSecond
  dsimp only
  split <;> simp

@[simp] theorem State.bellMidnight_keeps (s : State) (d : Word16) :
    (s.bellMidnight d).now = s.now ∧
    (s.bellMidnight d).held = s.held ∧
    (s.bellMidnight d).mainPower = s.mainPower ∧
    (s.bellMidnight d).tb = s.tb ∧
    (s.bellMidnight d).zm = s.zm ∧
    (s.bellMidnight d).za = s.za ∧
    (s.bellMidnight d).pe = s.pe ∧
    (s.bellMidnight d).cld = s.cld ∧
    (s.bellMidnight d).csv = s.csv ∧
    (s.bellMidnight d).fdc = s.fdc ∧
    (s.bellMidnight d).mu = s.mu ∧
    (s.bellMidnight d).rs = s.rs ∧
    (s.bellMidnight d).image = s.image ∧
    (s.bellMidnight d).draws = s.draws ∧
    (s.bellMidnight d).pending = s.pending := by
  simp [State.bellMidnight]

@[simp] theorem State.bellForward_keeps (s : State) (a b : Nat) :
    (s.bellForward a b).now = s.now ∧
    (s.bellForward a b).held = s.held ∧
    (s.bellForward a b).mainPower = s.mainPower ∧
    (s.bellForward a b).tb = s.tb ∧
    (s.bellForward a b).zm = s.zm ∧
    (s.bellForward a b).pe = s.pe ∧
    (s.bellForward a b).cld = s.cld ∧
    (s.bellForward a b).mu = s.mu ∧
    (s.bellForward a b).rs = s.rs ∧
    (s.bellForward a b).image = s.image ∧
    (s.bellForward a b).pending = s.pending := by
  unfold State.bellForward
  dsimp only
  (repeat' split) <;> simp

@[simp] theorem State.bellOtherDay_keeps (s : State) (e : StepEvent) (n : Nat) :
    (s.bellOtherDay e n).now = s.now ∧
    (s.bellOtherDay e n).held = s.held ∧
    (s.bellOtherDay e n).mainPower = s.mainPower ∧
    (s.bellOtherDay e n).tb = s.tb ∧
    (s.bellOtherDay e n).zm = s.zm ∧
    (s.bellOtherDay e n).pe = s.pe ∧
    (s.bellOtherDay e n).cld = s.cld ∧
    (s.bellOtherDay e n).mu = s.mu ∧
    (s.bellOtherDay e n).rs = s.rs ∧
    (s.bellOtherDay e n).image = s.image ∧
    (s.bellOtherDay e n).pending = s.pending := by
  unfold State.bellOtherDay
  dsimp only
  split <;> simp

@[simp] theorem State.bellFromBackup_keeps (s : State) (e : StepEvent) (n : Nat) :
    (s.bellFromBackup e n).now = s.now ∧
    (s.bellFromBackup e n).held = s.held ∧
    (s.bellFromBackup e n).mainPower = s.mainPower ∧
    (s.bellFromBackup e n).tb = s.tb ∧
    (s.bellFromBackup e n).zm = s.zm ∧
    (s.bellFromBackup e n).za = s.za ∧
    (s.bellFromBackup e n).pe = s.pe ∧
    (s.bellFromBackup e n).cld = s.cld ∧
    (s.bellFromBackup e n).csv = s.csv ∧
    (s.bellFromBackup e n).fdc = s.fdc ∧
    (s.bellFromBackup e n).mu = s.mu ∧
    (s.bellFromBackup e n).rs = s.rs ∧
    (s.bellFromBackup e n).image = s.image ∧
    (s.bellFromBackup e n).draws = s.draws ∧
    (s.bellFromBackup e n).pending = s.pending := by
  unfold State.bellFromBackup
  (repeat' split) <;> simp

@[simp] theorem State.bellStep_keeps (s : State) (e : StepEvent) :
    (s.bellStep e).now = s.now ∧
    (s.bellStep e).held = s.held ∧
    (s.bellStep e).mainPower = s.mainPower ∧
    (s.bellStep e).tb = s.tb ∧
    (s.bellStep e).zm = s.zm ∧
    (s.bellStep e).pe = s.pe ∧
    (s.bellStep e).cld = s.cld ∧
    (s.bellStep e).mu = s.mu ∧
    (s.bellStep e).rs = s.rs ∧
    (s.bellStep e).image = s.image ∧
    (s.bellStep e).pending = s.pending := by
  unfold State.bellStep
  dsimp only
  (repeat' split) <;> simp

@[simp] theorem State.bellStart_keeps (s : State) (d : Word16) (t : Nat) :
    (s.bellStart d t).now = s.now ∧
    (s.bellStart d t).held = s.held ∧
    (s.bellStart d t).mainPower = s.mainPower ∧
    (s.bellStart d t).tb = s.tb ∧
    (s.bellStart d t).zm = s.zm ∧
    (s.bellStart d t).za = s.za ∧
    (s.bellStart d t).pe = s.pe ∧
    (s.bellStart d t).cld = s.cld ∧
    (s.bellStart d t).csv = s.csv ∧
    (s.bellStart d t).fdc = s.fdc ∧
    (s.bellStart d t).mu = s.mu ∧
    (s.bellStart d t).rs = s.rs ∧
    (s.bellStart d t).image = s.image ∧
    (s.bellStart d t).draws = s.draws ∧
    (s.bellStart d t).pending = s.pending := by
  simp [State.bellStart]

/-! ## The Page Engine (R99 to R114) -/

@[simp] theorem State.releaseCall_keeps (s : State) (r : Fin 8) :
    (s.releaseCall r).now = s.now ∧
    (s.releaseCall r).held = s.held ∧
    (s.releaseCall r).mainPower = s.mainPower ∧
    (s.releaseCall r).line = s.line ∧
    (s.releaseCall r).tb = s.tb ∧
    (s.releaseCall r).zm = s.zm ∧
    (s.releaseCall r).bs = s.bs ∧
    (s.releaseCall r).cld = s.cld ∧
    (s.releaseCall r).fdc = s.fdc ∧
    (s.releaseCall r).mu = s.mu ∧
    (s.releaseCall r).rs = s.rs ∧
    (s.releaseCall r).image = s.image ∧
    (s.releaseCall r).pending = s.pending := by
  simp [State.releaseCall]

@[simp] theorem foldReleaseCall_keeps (l : List (Fin 8)) (s : State) :
    (l.foldl State.releaseCall s).now = s.now ∧
    (l.foldl State.releaseCall s).held = s.held ∧
    (l.foldl State.releaseCall s).mainPower = s.mainPower ∧
    (l.foldl State.releaseCall s).line = s.line ∧
    (l.foldl State.releaseCall s).tb = s.tb ∧
    (l.foldl State.releaseCall s).zm = s.zm ∧
    (l.foldl State.releaseCall s).bs = s.bs ∧
    (l.foldl State.releaseCall s).cld = s.cld ∧
    (l.foldl State.releaseCall s).fdc = s.fdc ∧
    (l.foldl State.releaseCall s).mu = s.mu ∧
    (l.foldl State.releaseCall s).rs = s.rs ∧
    (l.foldl State.releaseCall s).image = s.image ∧
    (l.foldl State.releaseCall s).pending = s.pending := by
  exact ⟨foldl_part State.now (by intros; simp) _ _,
    foldl_part State.held (by intros; simp) _ _,
    foldl_part State.mainPower (by intros; simp) _ _,
    foldl_part State.line (by intros; simp) _ _,
    foldl_part State.tb (by intros; simp) _ _,
    foldl_part State.zm (by intros; simp) _ _,
    foldl_part State.bs (by intros; simp) _ _,
    foldl_part State.cld (by intros; simp) _ _,
    foldl_part State.fdc (by intros; simp) _ _,
    foldl_part State.mu (by intros; simp) _ _,
    foldl_part State.rs (by intros; simp) _ _,
    foldl_part State.image (by intros; simp) _ _,
    foldl_part State.pending (by intros; simp) _ _⟩

@[simp] theorem State.closeCalls_keeps (s : State) (l : List (Fin 8)) :
    (s.closeCalls l).now = s.now ∧
    (s.closeCalls l).held = s.held ∧
    (s.closeCalls l).mainPower = s.mainPower ∧
    (s.closeCalls l).line = s.line ∧
    (s.closeCalls l).tb = s.tb ∧
    (s.closeCalls l).zm = s.zm ∧
    (s.closeCalls l).bs = s.bs ∧
    (s.closeCalls l).cld = s.cld ∧
    (s.closeCalls l).fdc = s.fdc ∧
    (s.closeCalls l).mu = s.mu ∧
    (s.closeCalls l).rs = s.rs ∧
    (s.closeCalls l).image = s.image ∧
    (s.closeCalls l).pending = s.pending := by
  simp [State.closeCalls]

@[simp] theorem State.closeCall_keeps (s : State) (r : Fin 8) :
    (s.closeCall r).now = s.now ∧
    (s.closeCall r).held = s.held ∧
    (s.closeCall r).mainPower = s.mainPower ∧
    (s.closeCall r).line = s.line ∧
    (s.closeCall r).tb = s.tb ∧
    (s.closeCall r).zm = s.zm ∧
    (s.closeCall r).bs = s.bs ∧
    (s.closeCall r).cld = s.cld ∧
    (s.closeCall r).fdc = s.fdc ∧
    (s.closeCall r).mu = s.mu ∧
    (s.closeCall r).rs = s.rs ∧
    (s.closeCall r).image = s.image ∧
    (s.closeCall r).pending = s.pending := by
  simp [State.closeCall]

@[simp] theorem State.pageClaims_keeps (s : State) (r : Fin 8) (p : Nat) (l : List Output) :
    (s.pageClaims r p l).now = s.now ∧
    (s.pageClaims r p l).held = s.held ∧
    (s.pageClaims r p l).mainPower = s.mainPower ∧
    (s.pageClaims r p l).line = s.line ∧
    (s.pageClaims r p l).tb = s.tb ∧
    (s.pageClaims r p l).zm = s.zm ∧
    (s.pageClaims r p l).bs = s.bs ∧
    (s.pageClaims r p l).pe = s.pe ∧
    (s.pageClaims r p l).cld = s.cld ∧
    (s.pageClaims r p l).csv = s.csv ∧
    (s.pageClaims r p l).fdc = s.fdc ∧
    (s.pageClaims r p l).mu = s.mu ∧
    (s.pageClaims r p l).rs = s.rs ∧
    (s.pageClaims r p l).image = s.image ∧
    (s.pageClaims r p l).draws = s.draws ∧
    (s.pageClaims r p l).pending = s.pending := by
  simp [State.pageClaims]

@[simp] theorem State.createCall_keeps (s : State) (r : Fin 8) (f : OpenFields) (l : List Output) :
    (s.createCall r f l).now = s.now ∧
    (s.createCall r f l).held = s.held ∧
    (s.createCall r f l).mainPower = s.mainPower ∧
    (s.createCall r f l).line = s.line ∧
    (s.createCall r f l).tb = s.tb ∧
    (s.createCall r f l).zm = s.zm ∧
    (s.createCall r f l).bs = s.bs ∧
    (s.createCall r f l).cld = s.cld ∧
    (s.createCall r f l).fdc = s.fdc ∧
    (s.createCall r f l).mu = s.mu ∧
    (s.createCall r f l).rs = s.rs ∧
    (s.createCall r f l).image = s.image ∧
    (s.createCall r f l).pending = s.pending := by
  simp [State.createCall]

@[simp] theorem State.reopenCall_keeps (s : State) (r : Fin 8) (c : Call) (f : OpenFields) (l : List Output) :
    (s.reopenCall r c f l).now = s.now ∧
    (s.reopenCall r c f l).held = s.held ∧
    (s.reopenCall r c f l).mainPower = s.mainPower ∧
    (s.reopenCall r c f l).line = s.line ∧
    (s.reopenCall r c f l).tb = s.tb ∧
    (s.reopenCall r c f l).zm = s.zm ∧
    (s.reopenCall r c f l).bs = s.bs ∧
    (s.reopenCall r c f l).cld = s.cld ∧
    (s.reopenCall r c f l).fdc = s.fdc ∧
    (s.reopenCall r c f l).mu = s.mu ∧
    (s.reopenCall r c f l).rs = s.rs ∧
    (s.reopenCall r c f l).image = s.image ∧
    (s.reopenCall r c f l).pending = s.pending := by
  simp [State.reopenCall]

@[simp] theorem State.evictFor_keeps (s : State) (f : OpenFields) (l : List Output) :
    (s.evictFor f l).now = s.now ∧
    (s.evictFor f l).held = s.held ∧
    (s.evictFor f l).mainPower = s.mainPower ∧
    (s.evictFor f l).tb = s.tb ∧
    (s.evictFor f l).zm = s.zm ∧
    (s.evictFor f l).bs = s.bs ∧
    (s.evictFor f l).cld = s.cld ∧
    (s.evictFor f l).fdc = s.fdc ∧
    (s.evictFor f l).mu = s.mu ∧
    (s.evictFor f l).rs = s.rs ∧
    (s.evictFor f l).image = s.image ∧
    (s.evictFor f l).pending = s.pending := by
  unfold State.evictFor
  (repeat' split) <;> simp

@[simp] theorem State.takeOpen_keeps (s : State) (p : List Byte) :
    (s.takeOpen p).now = s.now ∧
    (s.takeOpen p).held = s.held ∧
    (s.takeOpen p).mainPower = s.mainPower ∧
    (s.takeOpen p).tb = s.tb ∧
    (s.takeOpen p).zm = s.zm ∧
    (s.takeOpen p).bs = s.bs ∧
    (s.takeOpen p).cld = s.cld ∧
    (s.takeOpen p).fdc = s.fdc ∧
    (s.takeOpen p).mu = s.mu ∧
    (s.takeOpen p).rs = s.rs ∧
    (s.takeOpen p).image = s.image ∧
    (s.takeOpen p).pending = s.pending := by
  unfold State.takeOpen
  dsimp only
  (repeat' split) <;> simp

@[simp] theorem State.takeClose_keeps (s : State) (p : List Byte) :
    (s.takeClose p).now = s.now ∧
    (s.takeClose p).held = s.held ∧
    (s.takeClose p).mainPower = s.mainPower ∧
    (s.takeClose p).line = s.line ∧
    (s.takeClose p).tb = s.tb ∧
    (s.takeClose p).zm = s.zm ∧
    (s.takeClose p).bs = s.bs ∧
    (s.takeClose p).cld = s.cld ∧
    (s.takeClose p).fdc = s.fdc ∧
    (s.takeClose p).mu = s.mu ∧
    (s.takeClose p).rs = s.rs ∧
    (s.takeClose p).image = s.image ∧
    (s.takeClose p).pending = s.pending := by
  unfold State.takeClose
  (repeat' split) <;> simp

@[simp] theorem State.enqueueFrames_keeps (s : State) (r : Fin 8) (c : Call) (n : Byte) (l : List AudioFrame) :
    (s.enqueueFrames r c n l).now = s.now ∧
    (s.enqueueFrames r c n l).held = s.held ∧
    (s.enqueueFrames r c n l).mainPower = s.mainPower ∧
    (s.enqueueFrames r c n l).line = s.line ∧
    (s.enqueueFrames r c n l).tb = s.tb ∧
    (s.enqueueFrames r c n l).zm = s.zm ∧
    (s.enqueueFrames r c n l).bs = s.bs ∧
    (s.enqueueFrames r c n l).za = s.za ∧
    (s.enqueueFrames r c n l).cld = s.cld ∧
    (s.enqueueFrames r c n l).csv = s.csv ∧
    (s.enqueueFrames r c n l).fdc = s.fdc ∧
    (s.enqueueFrames r c n l).mu = s.mu ∧
    (s.enqueueFrames r c n l).rs = s.rs ∧
    (s.enqueueFrames r c n l).image = s.image ∧
    (s.enqueueFrames r c n l).draws = s.draws ∧
    (s.enqueueFrames r c n l).pending = s.pending := by
  simp [State.enqueueFrames]

@[simp] theorem State.takeSequence_keeps (s : State) (r : Fin 8) (c : Call) (n : Byte) (f : AudioFrame) :
    (s.takeSequence r c n f).now = s.now ∧
    (s.takeSequence r c n f).held = s.held ∧
    (s.takeSequence r c n f).mainPower = s.mainPower ∧
    (s.takeSequence r c n f).line = s.line ∧
    (s.takeSequence r c n f).tb = s.tb ∧
    (s.takeSequence r c n f).zm = s.zm ∧
    (s.takeSequence r c n f).bs = s.bs ∧
    (s.takeSequence r c n f).za = s.za ∧
    (s.takeSequence r c n f).cld = s.cld ∧
    (s.takeSequence r c n f).csv = s.csv ∧
    (s.takeSequence r c n f).fdc = s.fdc ∧
    (s.takeSequence r c n f).mu = s.mu ∧
    (s.takeSequence r c n f).rs = s.rs ∧
    (s.takeSequence r c n f).image = s.image ∧
    (s.takeSequence r c n f).draws = s.draws ∧
    (s.takeSequence r c n f).pending = s.pending := by
  unfold State.takeSequence
  dsimp only
  (repeat' split) <;> simp

@[simp] theorem State.takeAudio_keeps (s : State) (p : List Byte) :
    (s.takeAudio p).now = s.now ∧
    (s.takeAudio p).held = s.held ∧
    (s.takeAudio p).mainPower = s.mainPower ∧
    (s.takeAudio p).line = s.line ∧
    (s.takeAudio p).tb = s.tb ∧
    (s.takeAudio p).zm = s.zm ∧
    (s.takeAudio p).bs = s.bs ∧
    (s.takeAudio p).za = s.za ∧
    (s.takeAudio p).cld = s.cld ∧
    (s.takeAudio p).csv = s.csv ∧
    (s.takeAudio p).fdc = s.fdc ∧
    (s.takeAudio p).mu = s.mu ∧
    (s.takeAudio p).rs = s.rs ∧
    (s.takeAudio p).image = s.image ∧
    (s.takeAudio p).draws = s.draws ∧
    (s.takeAudio p).pending = s.pending := by
  unfold State.takeAudio
  dsimp only
  (repeat' split) <;> simp

@[simp] theorem State.tickCall_keeps (s : State) (r : Fin 8) :
    (s.tickCall r).now = s.now ∧
    (s.tickCall r).held = s.held ∧
    (s.tickCall r).mainPower = s.mainPower ∧
    (s.tickCall r).line = s.line ∧
    (s.tickCall r).tb = s.tb ∧
    (s.tickCall r).zm = s.zm ∧
    (s.tickCall r).bs = s.bs ∧
    (s.tickCall r).za = s.za ∧
    (s.tickCall r).cld = s.cld ∧
    (s.tickCall r).csv = s.csv ∧
    (s.tickCall r).fdc = s.fdc ∧
    (s.tickCall r).mu = s.mu ∧
    (s.tickCall r).rs = s.rs ∧
    (s.tickCall r).image = s.image ∧
    (s.tickCall r).draws = s.draws ∧
    (s.tickCall r).pending = s.pending := by
  unfold State.tickCall
  dsimp only
  (repeat' split) <;> simp

@[simp] theorem State.clearClipped_keeps (s : State) (o : Output) :
    (s.clearClipped o).now = s.now ∧
    (s.clearClipped o).held = s.held ∧
    (s.clearClipped o).mainPower = s.mainPower ∧
    (s.clearClipped o).line = s.line ∧
    (s.clearClipped o).tb = s.tb ∧
    (s.clearClipped o).zm = s.zm ∧
    (s.clearClipped o).bs = s.bs ∧
    (s.clearClipped o).pe = s.pe ∧
    (s.clearClipped o).cld = s.cld ∧
    (s.clearClipped o).csv = s.csv ∧
    (s.clearClipped o).fdc = s.fdc ∧
    (s.clearClipped o).mu = s.mu ∧
    (s.clearClipped o).rs = s.rs ∧
    (s.clearClipped o).image = s.image ∧
    (s.clearClipped o).counters = s.counters ∧
    (s.clearClipped o).draws = s.draws ∧
    (s.clearClipped o).pending = s.pending := by
  unfold State.clearClipped
  simp

@[simp] theorem State.handFrame_keeps (s : State) (o : Output) :
    (s.handFrame o).now = s.now ∧
    (s.handFrame o).held = s.held ∧
    (s.handFrame o).mainPower = s.mainPower ∧
    (s.handFrame o).line = s.line ∧
    (s.handFrame o).tb = s.tb ∧
    (s.handFrame o).zm = s.zm ∧
    (s.handFrame o).bs = s.bs ∧
    (s.handFrame o).pe = s.pe ∧
    (s.handFrame o).cld = s.cld ∧
    (s.handFrame o).csv = s.csv ∧
    (s.handFrame o).fdc = s.fdc ∧
    (s.handFrame o).mu = s.mu ∧
    (s.handFrame o).rs = s.rs ∧
    (s.handFrame o).image = s.image ∧
    (s.handFrame o).counters = s.counters ∧
    (s.handFrame o).draws = s.draws ∧
    (s.handFrame o).pending = s.pending := by
  unfold State.handFrame
  (repeat' split) <;> simp

@[simp] theorem foldSettleClip_keeps (l : List Output) (s : State) :
    (l.foldl State.settleClip s).now = s.now ∧
    (l.foldl State.settleClip s).held = s.held ∧
    (l.foldl State.settleClip s).mainPower = s.mainPower ∧
    (l.foldl State.settleClip s).line = s.line ∧
    (l.foldl State.settleClip s).tb = s.tb ∧
    (l.foldl State.settleClip s).zm = s.zm ∧
    (l.foldl State.settleClip s).bs = s.bs ∧
    (l.foldl State.settleClip s).pe = s.pe ∧
    (l.foldl State.settleClip s).cld = s.cld ∧
    (l.foldl State.settleClip s).csv = s.csv ∧
    (l.foldl State.settleClip s).fdc = s.fdc ∧
    (l.foldl State.settleClip s).mu = s.mu ∧
    (l.foldl State.settleClip s).rs = s.rs ∧
    (l.foldl State.settleClip s).image = s.image ∧
    (l.foldl State.settleClip s).draws = s.draws ∧
    (l.foldl State.settleClip s).pending = s.pending := by
  exact ⟨foldl_part State.now (by intros; simp) _ _,
    foldl_part State.held (by intros; simp) _ _,
    foldl_part State.mainPower (by intros; simp) _ _,
    foldl_part State.line (by intros; simp) _ _,
    foldl_part State.tb (by intros; simp) _ _,
    foldl_part State.zm (by intros; simp) _ _,
    foldl_part State.bs (by intros; simp) _ _,
    foldl_part State.pe (by intros; simp) _ _,
    foldl_part State.cld (by intros; simp) _ _,
    foldl_part State.csv (by intros; simp) _ _,
    foldl_part State.fdc (by intros; simp) _ _,
    foldl_part State.mu (by intros; simp) _ _,
    foldl_part State.rs (by intros; simp) _ _,
    foldl_part State.image (by intros; simp) _ _,
    foldl_part State.draws (by intros; simp) _ _,
    foldl_part State.pending (by intros; simp) _ _⟩

@[simp] theorem foldTickCall_keeps (l : List (Fin 8)) (s : State) :
    (l.foldl State.tickCall s).now = s.now ∧
    (l.foldl State.tickCall s).held = s.held ∧
    (l.foldl State.tickCall s).mainPower = s.mainPower ∧
    (l.foldl State.tickCall s).line = s.line ∧
    (l.foldl State.tickCall s).tb = s.tb ∧
    (l.foldl State.tickCall s).zm = s.zm ∧
    (l.foldl State.tickCall s).bs = s.bs ∧
    (l.foldl State.tickCall s).za = s.za ∧
    (l.foldl State.tickCall s).cld = s.cld ∧
    (l.foldl State.tickCall s).csv = s.csv ∧
    (l.foldl State.tickCall s).fdc = s.fdc ∧
    (l.foldl State.tickCall s).mu = s.mu ∧
    (l.foldl State.tickCall s).rs = s.rs ∧
    (l.foldl State.tickCall s).image = s.image ∧
    (l.foldl State.tickCall s).draws = s.draws ∧
    (l.foldl State.tickCall s).pending = s.pending := by
  exact ⟨foldl_part State.now (by intros; simp) _ _,
    foldl_part State.held (by intros; simp) _ _,
    foldl_part State.mainPower (by intros; simp) _ _,
    foldl_part State.line (by intros; simp) _ _,
    foldl_part State.tb (by intros; simp) _ _,
    foldl_part State.zm (by intros; simp) _ _,
    foldl_part State.bs (by intros; simp) _ _,
    foldl_part State.za (by intros; simp) _ _,
    foldl_part State.cld (by intros; simp) _ _,
    foldl_part State.csv (by intros; simp) _ _,
    foldl_part State.fdc (by intros; simp) _ _,
    foldl_part State.mu (by intros; simp) _ _,
    foldl_part State.rs (by intros; simp) _ _,
    foldl_part State.image (by intros; simp) _ _,
    foldl_part State.draws (by intros; simp) _ _,
    foldl_part State.pending (by intros; simp) _ _⟩

@[simp] theorem foldClearClipped_keeps (l : List Output) (s : State) :
    (l.foldl State.clearClipped s).now = s.now ∧
    (l.foldl State.clearClipped s).held = s.held ∧
    (l.foldl State.clearClipped s).mainPower = s.mainPower ∧
    (l.foldl State.clearClipped s).line = s.line ∧
    (l.foldl State.clearClipped s).tb = s.tb ∧
    (l.foldl State.clearClipped s).zm = s.zm ∧
    (l.foldl State.clearClipped s).bs = s.bs ∧
    (l.foldl State.clearClipped s).pe = s.pe ∧
    (l.foldl State.clearClipped s).cld = s.cld ∧
    (l.foldl State.clearClipped s).csv = s.csv ∧
    (l.foldl State.clearClipped s).fdc = s.fdc ∧
    (l.foldl State.clearClipped s).mu = s.mu ∧
    (l.foldl State.clearClipped s).rs = s.rs ∧
    (l.foldl State.clearClipped s).image = s.image ∧
    (l.foldl State.clearClipped s).counters = s.counters ∧
    (l.foldl State.clearClipped s).draws = s.draws ∧
    (l.foldl State.clearClipped s).pending = s.pending := by
  exact ⟨foldl_part State.now (by intros; simp) _ _,
    foldl_part State.held (by intros; simp) _ _,
    foldl_part State.mainPower (by intros; simp) _ _,
    foldl_part State.line (by intros; simp) _ _,
    foldl_part State.tb (by intros; simp) _ _,
    foldl_part State.zm (by intros; simp) _ _,
    foldl_part State.bs (by intros; simp) _ _,
    foldl_part State.pe (by intros; simp) _ _,
    foldl_part State.cld (by intros; simp) _ _,
    foldl_part State.csv (by intros; simp) _ _,
    foldl_part State.fdc (by intros; simp) _ _,
    foldl_part State.mu (by intros; simp) _ _,
    foldl_part State.rs (by intros; simp) _ _,
    foldl_part State.image (by intros; simp) _ _,
    foldl_part State.counters (by intros; simp) _ _,
    foldl_part State.draws (by intros; simp) _ _,
    foldl_part State.pending (by intros; simp) _ _⟩

@[simp] theorem foldHandFrame_keeps (l : List Output) (s : State) :
    (l.foldl State.handFrame s).now = s.now ∧
    (l.foldl State.handFrame s).held = s.held ∧
    (l.foldl State.handFrame s).mainPower = s.mainPower ∧
    (l.foldl State.handFrame s).line = s.line ∧
    (l.foldl State.handFrame s).tb = s.tb ∧
    (l.foldl State.handFrame s).zm = s.zm ∧
    (l.foldl State.handFrame s).bs = s.bs ∧
    (l.foldl State.handFrame s).pe = s.pe ∧
    (l.foldl State.handFrame s).cld = s.cld ∧
    (l.foldl State.handFrame s).csv = s.csv ∧
    (l.foldl State.handFrame s).fdc = s.fdc ∧
    (l.foldl State.handFrame s).mu = s.mu ∧
    (l.foldl State.handFrame s).rs = s.rs ∧
    (l.foldl State.handFrame s).image = s.image ∧
    (l.foldl State.handFrame s).counters = s.counters ∧
    (l.foldl State.handFrame s).draws = s.draws ∧
    (l.foldl State.handFrame s).pending = s.pending := by
  exact ⟨foldl_part State.now (by intros; simp) _ _,
    foldl_part State.held (by intros; simp) _ _,
    foldl_part State.mainPower (by intros; simp) _ _,
    foldl_part State.line (by intros; simp) _ _,
    foldl_part State.tb (by intros; simp) _ _,
    foldl_part State.zm (by intros; simp) _ _,
    foldl_part State.bs (by intros; simp) _ _,
    foldl_part State.pe (by intros; simp) _ _,
    foldl_part State.cld (by intros; simp) _ _,
    foldl_part State.csv (by intros; simp) _ _,
    foldl_part State.fdc (by intros; simp) _ _,
    foldl_part State.mu (by intros; simp) _ _,
    foldl_part State.rs (by intros; simp) _ _,
    foldl_part State.image (by intros; simp) _ _,
    foldl_part State.counters (by intros; simp) _ _,
    foldl_part State.draws (by intros; simp) _ _,
    foldl_part State.pending (by intros; simp) _ _⟩

@[simp] theorem State.frameTick_keeps (s : State) :
    (s.frameTick).now = s.now ∧
    (s.frameTick).held = s.held ∧
    (s.frameTick).mainPower = s.mainPower ∧
    (s.frameTick).line = s.line ∧
    (s.frameTick).tb = s.tb ∧
    (s.frameTick).zm = s.zm ∧
    (s.frameTick).bs = s.bs ∧
    (s.frameTick).cld = s.cld ∧
    (s.frameTick).fdc = s.fdc ∧
    (s.frameTick).mu = s.mu ∧
    (s.frameTick).rs = s.rs ∧
    (s.frameTick).image = s.image ∧
    (s.frameTick).pending = s.pending := by
  simp [State.frameTick]

@[simp] theorem State.cutCalls_keeps (s : State) :
    (s.cutCalls).now = s.now ∧
    (s.cutCalls).held = s.held ∧
    (s.cutCalls).mainPower = s.mainPower ∧
    (s.cutCalls).line = s.line ∧
    (s.cutCalls).tb = s.tb ∧
    (s.cutCalls).zm = s.zm ∧
    (s.cutCalls).bs = s.bs ∧
    (s.cutCalls).cld = s.cld ∧
    (s.cutCalls).fdc = s.fdc ∧
    (s.cutCalls).mu = s.mu ∧
    (s.cutCalls).rs = s.rs ∧
    (s.cutCalls).image = s.image ∧
    (s.cutCalls).pending = s.pending := by
  simp [State.cutCalls]

/-! ## The Timebase (R2 to R19) -/

@[simp] theorem State.setQuality_keeps (s : State) (q : Quality) :
    (s.setQuality q).now = s.now ∧
    (s.setQuality q).held = s.held ∧
    (s.setQuality q).mainPower = s.mainPower ∧
    (s.setQuality q).zm = s.zm ∧
    (s.setQuality q).bs = s.bs ∧
    (s.setQuality q).za = s.za ∧
    (s.setQuality q).pe = s.pe ∧
    (s.setQuality q).cld = s.cld ∧
    (s.setQuality q).csv = s.csv ∧
    (s.setQuality q).fdc = s.fdc ∧
    (s.setQuality q).mu = s.mu ∧
    (s.setQuality q).rs = s.rs ∧
    (s.setQuality q).image = s.image ∧
    (s.setQuality q).draws = s.draws ∧
    (s.setQuality q).pending = s.pending := by
  unfold State.setQuality
  dsimp only
  split <;> simp

@[simp] theorem State.writeBackup_keeps (s : State) :
    (s.writeBackup).now = s.now ∧
    (s.writeBackup).held = s.held ∧
    (s.writeBackup).mainPower = s.mainPower ∧
    (s.writeBackup).line = s.line ∧
    (s.writeBackup).tb = s.tb ∧
    (s.writeBackup).zm = s.zm ∧
    (s.writeBackup).bs = s.bs ∧
    (s.writeBackup).za = s.za ∧
    (s.writeBackup).pe = s.pe ∧
    (s.writeBackup).cld = s.cld ∧
    (s.writeBackup).csv = s.csv ∧
    (s.writeBackup).fdc = s.fdc ∧
    (s.writeBackup).mu = s.mu ∧
    (s.writeBackup).image = s.image ∧
    (s.writeBackup).counters = s.counters ∧
    (s.writeBackup).draws = s.draws ∧
    (s.writeBackup).pending = s.pending := by
  simp [State.writeBackup]

@[simp] theorem State.backupSecond_keeps (s : State) :
    (s.backupSecond).now = s.now ∧
    (s.backupSecond).held = s.held ∧
    (s.backupSecond).mainPower = s.mainPower ∧
    (s.backupSecond).line = s.line ∧
    (s.backupSecond).tb = s.tb ∧
    (s.backupSecond).zm = s.zm ∧
    (s.backupSecond).bs = s.bs ∧
    (s.backupSecond).za = s.za ∧
    (s.backupSecond).pe = s.pe ∧
    (s.backupSecond).cld = s.cld ∧
    (s.backupSecond).csv = s.csv ∧
    (s.backupSecond).fdc = s.fdc ∧
    (s.backupSecond).mu = s.mu ∧
    (s.backupSecond).image = s.image ∧
    (s.backupSecond).counters = s.counters ∧
    (s.backupSecond).draws = s.draws ∧
    (s.backupSecond).pending = s.pending := by
  unfold State.backupSecond
  (repeat' split) <;> simp

@[simp] theorem State.secondBoundary_keeps (s : State) (b : Bool) (n : Nat) :
    (s.secondBoundary b n).now = s.now ∧
    (s.secondBoundary b n).held = s.held ∧
    (s.secondBoundary b n).mainPower = s.mainPower ∧
    (s.secondBoundary b n).tb = s.tb ∧
    (s.secondBoundary b n).zm = s.zm ∧
    (s.secondBoundary b n).pe = s.pe ∧
    (s.secondBoundary b n).cld = s.cld ∧
    (s.secondBoundary b n).mu = s.mu ∧
    (s.secondBoundary b n).rs = s.rs ∧
    (s.secondBoundary b n).image = s.image ∧
    (s.secondBoundary b n).pending = s.pending := by
  unfold State.secondBoundary inOrder
  split <;> simp

@[simp] theorem State.stepBoundary_keeps (s : State) (k : Nat) :
    (s.stepBoundary k).now = s.now ∧
    (s.stepBoundary k).held = s.held ∧
    (s.stepBoundary k).mainPower = s.mainPower ∧
    (s.stepBoundary k).tb = s.tb ∧
    (s.stepBoundary k).zm = s.zm ∧
    (s.stepBoundary k).bs = s.bs ∧
    (s.stepBoundary k).za = s.za ∧
    (s.stepBoundary k).pe = s.pe ∧
    (s.stepBoundary k).fdc = s.fdc ∧
    (s.stepBoundary k).mu = s.mu ∧
    (s.stepBoundary k).rs = s.rs ∧
    (s.stepBoundary k).image = s.image ∧
    (s.stepBoundary k).pending = s.pending := by
  unfold State.stepBoundary
  exact ⟨foldl_part State.now (by intros; (repeat' split) <;> simp) _ _,
    foldl_part State.held (by intros; (repeat' split) <;> simp) _ _,
    foldl_part State.mainPower (by intros; (repeat' split) <;> simp) _ _,
    foldl_part State.tb (by intros; (repeat' split) <;> simp) _ _,
    foldl_part State.zm (by intros; (repeat' split) <;> simp) _ _,
    foldl_part State.bs (by intros; (repeat' split) <;> simp) _ _,
    foldl_part State.za (by intros; (repeat' split) <;> simp) _ _,
    foldl_part State.pe (by intros; (repeat' split) <;> simp) _ _,
    foldl_part State.fdc (by intros; (repeat' split) <;> simp) _ _,
    foldl_part State.mu (by intros; (repeat' split) <;> simp) _ _,
    foldl_part State.rs (by intros; (repeat' split) <;> simp) _ _,
    foldl_part State.image (by intros; (repeat' split) <;> simp) _ _,
    foldl_part State.pending (by intros; (repeat' split) <;> simp) _ _⟩

@[simp] theorem State.evaluateAll_keeps (s : State) :
    (s.evaluateAll).now = s.now ∧
    (s.evaluateAll).held = s.held ∧
    (s.evaluateAll).mainPower = s.mainPower ∧
    (s.evaluateAll).tb = s.tb ∧
    (s.evaluateAll).zm = s.zm ∧
    (s.evaluateAll).bs = s.bs ∧
    (s.evaluateAll).za = s.za ∧
    (s.evaluateAll).pe = s.pe ∧
    (s.evaluateAll).fdc = s.fdc ∧
    (s.evaluateAll).mu = s.mu ∧
    (s.evaluateAll).rs = s.rs ∧
    (s.evaluateAll).image = s.image ∧
    (s.evaluateAll).pending = s.pending := by
  unfold State.evaluateAll
  exact ⟨foldl_part State.now (by intros; split <;> simp) _ _,
    foldl_part State.held (by intros; split <;> simp) _ _,
    foldl_part State.mainPower (by intros; split <;> simp) _ _,
    foldl_part State.tb (by intros; split <;> simp) _ _,
    foldl_part State.zm (by intros; split <;> simp) _ _,
    foldl_part State.bs (by intros; split <;> simp) _ _,
    foldl_part State.za (by intros; split <;> simp) _ _,
    foldl_part State.pe (by intros; split <;> simp) _ _,
    foldl_part State.fdc (by intros; split <;> simp) _ _,
    foldl_part State.mu (by intros; split <;> simp) _ _,
    foldl_part State.rs (by intros; split <;> simp) _ _,
    foldl_part State.image (by intros; split <;> simp) _ _,
    foldl_part State.pending (by intros; split <;> simp) _ _⟩

@[simp] theorem State.stepEvent_keeps (s : State) (b : Bool) (e : StepEvent) :
    (s.stepEvent b e).now = s.now ∧
    (s.stepEvent b e).held = s.held ∧
    (s.stepEvent b e).mainPower = s.mainPower ∧
    (s.stepEvent b e).tb = s.tb ∧
    (s.stepEvent b e).zm = s.zm ∧
    (s.stepEvent b e).pe = s.pe ∧
    (s.stepEvent b e).mu = s.mu ∧
    (s.stepEvent b e).rs = s.rs ∧
    (s.stepEvent b e).image = s.image ∧
    (s.stepEvent b e).pending = s.pending := by
  unfold State.stepEvent inOrder
  split <;> simp

@[simp] theorem State.startEvent_keeps (s : State) :
    (s.startEvent).now = s.now ∧
    (s.startEvent).held = s.held ∧
    (s.startEvent).mainPower = s.mainPower ∧
    (s.startEvent).tb = s.tb ∧
    (s.startEvent).zm = s.zm ∧
    (s.startEvent).pe = s.pe ∧
    (s.startEvent).mu = s.mu ∧
    (s.startEvent).rs = s.rs ∧
    (s.startEvent).image = s.image ∧
    (s.startEvent).pending = s.pending := by
  simp [State.startEvent]

@[simp] theorem State.tickEvents_keeps (s : State) (b : Bool) (m a : Nat) :
    (s.tickEvents b m a).now = s.now ∧
    (s.tickEvents b m a).held = s.held ∧
    (s.tickEvents b m a).mainPower = s.mainPower ∧
    (s.tickEvents b m a).tb = s.tb ∧
    (s.tickEvents b m a).zm = s.zm ∧
    (s.tickEvents b m a).pe = s.pe ∧
    (s.tickEvents b m a).mu = s.mu ∧
    (s.tickEvents b m a).image = s.image ∧
    (s.tickEvents b m a).pending = s.pending := by
  unfold State.tickEvents
  dsimp only
  (repeat' split) <;> simp

@[simp] theorem State.setEcho_keeps (s : State) (e : EchoState) :
    (s.setEcho e).now = s.now ∧
    (s.setEcho e).held = s.held ∧
    (s.setEcho e).mainPower = s.mainPower ∧
    (s.setEcho e).line = s.line ∧
    (s.setEcho e).zm = s.zm ∧
    (s.setEcho e).bs = s.bs ∧
    (s.setEcho e).za = s.za ∧
    (s.setEcho e).pe = s.pe ∧
    (s.setEcho e).cld = s.cld ∧
    (s.setEcho e).csv = s.csv ∧
    (s.setEcho e).fdc = s.fdc ∧
    (s.setEcho e).mu = s.mu ∧
    (s.setEcho e).rs = s.rs ∧
    (s.setEcho e).image = s.image ∧
    (s.setEcho e).counters = s.counters ∧
    (s.setEcho e).draws = s.draws ∧
    (s.setEcho e).pending = s.pending := by
  simp [State.setEcho]

@[simp] theorem State.echoRequest_keeps (s : State) :
    (s.echoRequest).now = s.now ∧
    (s.echoRequest).held = s.held ∧
    (s.echoRequest).mainPower = s.mainPower ∧
    (s.echoRequest).zm = s.zm ∧
    (s.echoRequest).bs = s.bs ∧
    (s.echoRequest).za = s.za ∧
    (s.echoRequest).pe = s.pe ∧
    (s.echoRequest).cld = s.cld ∧
    (s.echoRequest).csv = s.csv ∧
    (s.echoRequest).fdc = s.fdc ∧
    (s.echoRequest).mu = s.mu ∧
    (s.echoRequest).rs = s.rs ∧
    (s.echoRequest).image = s.image ∧
    (s.echoRequest).draws = s.draws ∧
    (s.echoRequest).pending = s.pending := by
  unfold State.echoRequest
  dsimp only
  (repeat' split) <;> simp

@[simp] theorem State.takeSample_keeps (s : State) (m : Nat) :
    (s.takeSample m).now = s.now ∧
    (s.takeSample m).held = s.held ∧
    (s.takeSample m).mainPower = s.mainPower ∧
    (s.takeSample m).line = s.line ∧
    (s.takeSample m).zm = s.zm ∧
    (s.takeSample m).bs = s.bs ∧
    (s.takeSample m).za = s.za ∧
    (s.takeSample m).pe = s.pe ∧
    (s.takeSample m).cld = s.cld ∧
    (s.takeSample m).csv = s.csv ∧
    (s.takeSample m).fdc = s.fdc ∧
    (s.takeSample m).mu = s.mu ∧
    (s.takeSample m).rs = s.rs ∧
    (s.takeSample m).image = s.image ∧
    (s.takeSample m).counters = s.counters ∧
    (s.takeSample m).draws = s.draws ∧
    (s.takeSample m).pending = s.pending := by
  simp [State.takeSample]

@[simp] theorem State.takeEchoReply_keeps (s : State) (t : Byte) (p : List Byte) :
    (s.takeEchoReply t p).now = s.now ∧
    (s.takeEchoReply t p).held = s.held ∧
    (s.takeEchoReply t p).mainPower = s.mainPower ∧
    (s.takeEchoReply t p).line = s.line ∧
    (s.takeEchoReply t p).zm = s.zm ∧
    (s.takeEchoReply t p).bs = s.bs ∧
    (s.takeEchoReply t p).za = s.za ∧
    (s.takeEchoReply t p).pe = s.pe ∧
    (s.takeEchoReply t p).cld = s.cld ∧
    (s.takeEchoReply t p).csv = s.csv ∧
    (s.takeEchoReply t p).fdc = s.fdc ∧
    (s.takeEchoReply t p).mu = s.mu ∧
    (s.takeEchoReply t p).rs = s.rs ∧
    (s.takeEchoReply t p).image = s.image ∧
    (s.takeEchoReply t p).draws = s.draws ∧
    (s.takeEchoReply t p).pending = s.pending := by
  unfold State.takeEchoReply
  dsimp only
  (repeat' split) <;> simp

@[simp] theorem State.localTickEvent_keeps (s : State) (b : Bool) :
    (s.localTickEvent b).held = s.held ∧
    (s.localTickEvent b).mainPower = s.mainPower ∧
    (s.localTickEvent b).zm = s.zm ∧
    (s.localTickEvent b).pe = s.pe ∧
    (s.localTickEvent b).mu = s.mu ∧
    (s.localTickEvent b).image = s.image ∧
    (s.localTickEvent b).pending = s.pending := by
  unfold State.localTickEvent
  dsimp only
  split <;> simp

@[simp] theorem State.localTicks_keeps (s : State) (b : Bool) (n : Nat) :
    (s.localTicks b n).held = s.held ∧
    (s.localTicks b n).mainPower = s.mainPower ∧
    (s.localTicks b n).zm = s.zm ∧
    (s.localTicks b n).pe = s.pe ∧
    (s.localTicks b n).mu = s.mu ∧
    (s.localTicks b n).image = s.image ∧
    (s.localTicks b n).pending = s.pending := by
  induction n generalizing s with
  | zero => simp [State.localTicks]
  | succ n ih => simp [State.localTicks, ih]

@[simp] theorem State.passLag_keeps (s : State) (l : Nat) (b : Bool) :
    (s.passLag l b).held = s.held ∧
    (s.passLag l b).mainPower = s.mainPower ∧
    (s.passLag l b).zm = s.zm ∧
    (s.passLag l b).pe = s.pe ∧
    (s.passLag l b).mu = s.mu ∧
    (s.passLag l b).image = s.image ∧
    (s.passLag l b).pending = s.pending := by
  simp [State.passLag]

@[simp] theorem State.takeStep_keeps (s : State) (f : TimeFields) (e : Nat × Word16) (m : Int) (l : Nat) (b : Bool) :
    (s.takeStep f e m l b).held = s.held ∧
    (s.takeStep f e m l b).mainPower = s.mainPower ∧
    (s.takeStep f e m l b).zm = s.zm ∧
    (s.takeStep f e m l b).pe = s.pe ∧
    (s.takeStep f e m l b).mu = s.mu ∧
    (s.takeStep f e m l b).image = s.image ∧
    (s.takeStep f e m l b).pending = s.pending := by
  unfold State.takeStep
  dsimp only
  split <;> simp

@[simp] theorem State.takeSlew_keeps (s : State) (m : Int) :
    (s.takeSlew m).now = s.now ∧
    (s.takeSlew m).held = s.held ∧
    (s.takeSlew m).mainPower = s.mainPower ∧
    (s.takeSlew m).zm = s.zm ∧
    (s.takeSlew m).bs = s.bs ∧
    (s.takeSlew m).za = s.za ∧
    (s.takeSlew m).pe = s.pe ∧
    (s.takeSlew m).cld = s.cld ∧
    (s.takeSlew m).csv = s.csv ∧
    (s.takeSlew m).fdc = s.fdc ∧
    (s.takeSlew m).mu = s.mu ∧
    (s.takeSlew m).rs = s.rs ∧
    (s.takeSlew m).image = s.image ∧
    (s.takeSlew m).draws = s.draws ∧
    (s.takeSlew m).pending = s.pending := by
  simp [State.takeSlew]

@[simp] theorem State.acceptTime_keeps (s : State) (f : TimeFields) (l : Nat) (b : Bool) :
    (s.acceptTime f l b).held = s.held ∧
    (s.acceptTime f l b).mainPower = s.mainPower ∧
    (s.acceptTime f l b).zm = s.zm ∧
    (s.acceptTime f l b).pe = s.pe ∧
    (s.acceptTime f l b).mu = s.mu ∧
    (s.acceptTime f l b).image = s.image ∧
    (s.acceptTime f l b).pending = s.pending := by
  unfold State.acceptTime
  dsimp only
  split <;> simp

/-! ## The line (R22 to R39) -/

@[simp] theorem State.endReception_keeps (s : State) (p : PortId) :
    (s.endReception p).now = s.now ∧
    (s.endReception p).held = s.held ∧
    (s.endReception p).mainPower = s.mainPower ∧
    (s.endReception p).tb = s.tb ∧
    (s.endReception p).zm = s.zm ∧
    (s.endReception p).bs = s.bs ∧
    (s.endReception p).za = s.za ∧
    (s.endReception p).pe = s.pe ∧
    (s.endReception p).cld = s.cld ∧
    (s.endReception p).csv = s.csv ∧
    (s.endReception p).fdc = s.fdc ∧
    (s.endReception p).mu = s.mu ∧
    (s.endReception p).rs = s.rs ∧
    (s.endReception p).image = s.image ∧
    (s.endReception p).counters = s.counters ∧
    (s.endReception p).draws = s.draws ∧
    (s.endReception p).pending = s.pending := by
  simp [State.endReception]

@[simp] theorem State.beginReception_keeps (s : State) (p : PortId) :
    (s.beginReception p).now = s.now ∧
    (s.beginReception p).held = s.held ∧
    (s.beginReception p).mainPower = s.mainPower ∧
    (s.beginReception p).tb = s.tb ∧
    (s.beginReception p).zm = s.zm ∧
    (s.beginReception p).bs = s.bs ∧
    (s.beginReception p).za = s.za ∧
    (s.beginReception p).pe = s.pe ∧
    (s.beginReception p).cld = s.cld ∧
    (s.beginReception p).csv = s.csv ∧
    (s.beginReception p).fdc = s.fdc ∧
    (s.beginReception p).mu = s.mu ∧
    (s.beginReception p).rs = s.rs ∧
    (s.beginReception p).image = s.image ∧
    (s.beginReception p).counters = s.counters ∧
    (s.beginReception p).draws = s.draws ∧
    (s.beginReception p).pending = s.pending := by
  unfold State.beginReception
  split <;> simp

@[simp] theorem State.discardReception_keeps (s : State) (p : PortId) (c : Counter) :
    (s.discardReception p c).now = s.now ∧
    (s.discardReception p c).held = s.held ∧
    (s.discardReception p c).mainPower = s.mainPower ∧
    (s.discardReception p c).tb = s.tb ∧
    (s.discardReception p c).zm = s.zm ∧
    (s.discardReception p c).bs = s.bs ∧
    (s.discardReception p c).za = s.za ∧
    (s.discardReception p c).pe = s.pe ∧
    (s.discardReception p c).cld = s.cld ∧
    (s.discardReception p c).csv = s.csv ∧
    (s.discardReception p c).fdc = s.fdc ∧
    (s.discardReception p c).mu = s.mu ∧
    (s.discardReception p c).rs = s.rs ∧
    (s.discardReception p c).image = s.image ∧
    (s.discardReception p c).draws = s.draws ∧
    (s.discardReception p c).pending = s.pending := by
  unfold State.discardReception
  split <;> simp

@[simp] theorem State.dropFailed_keeps (s : State) (p : PortId) (b : List Byte) :
    (s.dropFailed p b).now = s.now ∧
    (s.dropFailed p b).held = s.held ∧
    (s.dropFailed p b).mainPower = s.mainPower ∧
    (s.dropFailed p b).tb = s.tb ∧
    (s.dropFailed p b).zm = s.zm ∧
    (s.dropFailed p b).bs = s.bs ∧
    (s.dropFailed p b).za = s.za ∧
    (s.dropFailed p b).pe = s.pe ∧
    (s.dropFailed p b).cld = s.cld ∧
    (s.dropFailed p b).csv = s.csv ∧
    (s.dropFailed p b).fdc = s.fdc ∧
    (s.dropFailed p b).mu = s.mu ∧
    (s.dropFailed p b).rs = s.rs ∧
    (s.dropFailed p b).image = s.image ∧
    (s.dropFailed p b).draws = s.draws ∧
    (s.dropFailed p b).pending = s.pending := by
  unfold State.dropFailed
  (repeat' split) <;> simp

@[simp] theorem State.learnHop_keeps (s : State) (b : Byte) :
    (s.learnHop b).now = s.now ∧
    (s.learnHop b).held = s.held ∧
    (s.learnHop b).mainPower = s.mainPower ∧
    (s.learnHop b).tb = s.tb ∧
    (s.learnHop b).zm = s.zm ∧
    (s.learnHop b).bs = s.bs ∧
    (s.learnHop b).za = s.za ∧
    (s.learnHop b).pe = s.pe ∧
    (s.learnHop b).cld = s.cld ∧
    (s.learnHop b).csv = s.csv ∧
    (s.learnHop b).fdc = s.fdc ∧
    (s.learnHop b).mu = s.mu ∧
    (s.learnHop b).rs = s.rs ∧
    (s.learnHop b).image = s.image ∧
    (s.learnHop b).draws = s.draws ∧
    (s.learnHop b).pending = s.pending := by
  unfold State.learnHop
  dsimp only
  split <;> simp

@[simp] theorem State.learnAt_keeps (s : State) (h : Hdr) :
    (s.learnAt h).now = s.now ∧
    (s.learnAt h).held = s.held ∧
    (s.learnAt h).mainPower = s.mainPower ∧
    (s.learnAt h).tb = s.tb ∧
    (s.learnAt h).zm = s.zm ∧
    (s.learnAt h).bs = s.bs ∧
    (s.learnAt h).za = s.za ∧
    (s.learnAt h).pe = s.pe ∧
    (s.learnAt h).cld = s.cld ∧
    (s.learnAt h).csv = s.csv ∧
    (s.learnAt h).fdc = s.fdc ∧
    (s.learnAt h).mu = s.mu ∧
    (s.learnAt h).rs = s.rs ∧
    (s.learnAt h).image = s.image ∧
    (s.learnAt h).draws = s.draws ∧
    (s.learnAt h).pending = s.pending := by
  unfold State.learnAt
  split <;> simp

@[simp] theorem State.upstream_keeps (k : Byte) (h : Hdr) (p : List Byte) (s : State) :
    (s.upstream k h p).now = s.now ∧
    (s.upstream k h p).held = s.held ∧
    (s.upstream k h p).mainPower = s.mainPower ∧
    (s.upstream k h p).tb = s.tb ∧
    (s.upstream k h p).zm = s.zm ∧
    (s.upstream k h p).bs = s.bs ∧
    (s.upstream k h p).za = s.za ∧
    (s.upstream k h p).pe = s.pe ∧
    (s.upstream k h p).cld = s.cld ∧
    (s.upstream k h p).csv = s.csv ∧
    (s.upstream k h p).fdc = s.fdc ∧
    (s.upstream k h p).mu = s.mu ∧
    (s.upstream k h p).rs = s.rs ∧
    (s.upstream k h p).image = s.image ∧
    (s.upstream k h p).draws = s.draws ∧
    (s.upstream k h p).pending = s.pending := by
  unfold State.upstream State.receive State.sorted
  dsimp only
  (repeat' split) <;> simp

@[simp] theorem State.echoRequested_keeps (h : Hdr) (s : State) :
    (s.echoRequested h).now = s.now ∧
    (s.echoRequested h).held = s.held ∧
    (s.echoRequested h).mainPower = s.mainPower ∧
    (s.echoRequested h).tb = s.tb ∧
    (s.echoRequested h).zm = s.zm ∧
    (s.echoRequested h).bs = s.bs ∧
    (s.echoRequested h).za = s.za ∧
    (s.echoRequested h).pe = s.pe ∧
    (s.echoRequested h).cld = s.cld ∧
    (s.echoRequested h).csv = s.csv ∧
    (s.echoRequested h).fdc = s.fdc ∧
    (s.echoRequested h).mu = s.mu ∧
    (s.echoRequested h).rs = s.rs ∧
    (s.echoRequested h).image = s.image ∧
    (s.echoRequested h).draws = s.draws ∧
    (s.echoRequested h).pending = s.pending := by
  unfold State.echoRequested State.receive State.sorted
  dsimp only
  (repeat' split) <;> simp

@[simp] theorem State.unknownFrame_keeps (h : Hdr) (k : Byte) (p : List Byte) (s : State) :
    (s.unknownFrame h k p).now = s.now ∧
    (s.unknownFrame h k p).held = s.held ∧
    (s.unknownFrame h k p).mainPower = s.mainPower ∧
    (s.unknownFrame h k p).tb = s.tb ∧
    (s.unknownFrame h k p).zm = s.zm ∧
    (s.unknownFrame h k p).bs = s.bs ∧
    (s.unknownFrame h k p).za = s.za ∧
    (s.unknownFrame h k p).pe = s.pe ∧
    (s.unknownFrame h k p).cld = s.cld ∧
    (s.unknownFrame h k p).csv = s.csv ∧
    (s.unknownFrame h k p).fdc = s.fdc ∧
    (s.unknownFrame h k p).mu = s.mu ∧
    (s.unknownFrame h k p).rs = s.rs ∧
    (s.unknownFrame h k p).image = s.image ∧
    (s.unknownFrame h k p).draws = s.draws ∧
    (s.unknownFrame h k p).pending = s.pending := by
  unfold State.unknownFrame
  dsimp only
  (repeat' split) <;> simp

@[simp] theorem State.signalPresent_keeps (s : State) (p : PortId) :
    (s.signalPresent p).now = s.now ∧
    (s.signalPresent p).held = s.held ∧
    (s.signalPresent p).mainPower = s.mainPower ∧
    (s.signalPresent p).tb = s.tb ∧
    (s.signalPresent p).zm = s.zm ∧
    (s.signalPresent p).bs = s.bs ∧
    (s.signalPresent p).za = s.za ∧
    (s.signalPresent p).pe = s.pe ∧
    (s.signalPresent p).cld = s.cld ∧
    (s.signalPresent p).csv = s.csv ∧
    (s.signalPresent p).fdc = s.fdc ∧
    (s.signalPresent p).mu = s.mu ∧
    (s.signalPresent p).rs = s.rs ∧
    (s.signalPresent p).image = s.image ∧
    (s.signalPresent p).counters = s.counters ∧
    (s.signalPresent p).draws = s.draws ∧
    (s.signalPresent p).pending = s.pending := by
  unfold State.signalPresent
  split <;> simp

@[simp] theorem State.debounced_keeps (s : State) (p : PortId) :
    (s.debounced p).now = s.now ∧
    (s.debounced p).held = s.held ∧
    (s.debounced p).mainPower = s.mainPower ∧
    (s.debounced p).tb = s.tb ∧
    (s.debounced p).zm = s.zm ∧
    (s.debounced p).bs = s.bs ∧
    (s.debounced p).za = s.za ∧
    (s.debounced p).pe = s.pe ∧
    (s.debounced p).cld = s.cld ∧
    (s.debounced p).csv = s.csv ∧
    (s.debounced p).fdc = s.fdc ∧
    (s.debounced p).mu = s.mu ∧
    (s.debounced p).rs = s.rs ∧
    (s.debounced p).image = s.image ∧
    (s.debounced p).counters = s.counters ∧
    (s.debounced p).draws = s.draws ∧
    (s.debounced p).pending = s.pending := by
  unfold State.debounced
  split <;> simp

@[simp] theorem State.retrain_keeps (s : State) (p : PortId) :
    (s.retrain p).now = s.now ∧
    (s.retrain p).held = s.held ∧
    (s.retrain p).mainPower = s.mainPower ∧
    (s.retrain p).tb = s.tb ∧
    (s.retrain p).zm = s.zm ∧
    (s.retrain p).bs = s.bs ∧
    (s.retrain p).za = s.za ∧
    (s.retrain p).pe = s.pe ∧
    (s.retrain p).cld = s.cld ∧
    (s.retrain p).csv = s.csv ∧
    (s.retrain p).fdc = s.fdc ∧
    (s.retrain p).mu = s.mu ∧
    (s.retrain p).rs = s.rs ∧
    (s.retrain p).image = s.image ∧
    (s.retrain p).counters = s.counters ∧
    (s.retrain p).draws = s.draws ∧
    (s.retrain p).pending = s.pending := by
  unfold State.retrain
  split <;> simp

@[simp] theorem State.attachLost_keeps (s : State) (p : PortId) :
    (s.attachLost p).now = s.now ∧
    (s.attachLost p).held = s.held ∧
    (s.attachLost p).mainPower = s.mainPower ∧
    (s.attachLost p).tb = s.tb ∧
    (s.attachLost p).zm = s.zm ∧
    (s.attachLost p).bs = s.bs ∧
    (s.attachLost p).za = s.za ∧
    (s.attachLost p).pe = s.pe ∧
    (s.attachLost p).cld = s.cld ∧
    (s.attachLost p).csv = s.csv ∧
    (s.attachLost p).fdc = s.fdc ∧
    (s.attachLost p).mu = s.mu ∧
    (s.attachLost p).rs = s.rs ∧
    (s.attachLost p).image = s.image ∧
    (s.attachLost p).counters = s.counters ∧
    (s.attachLost p).draws = s.draws ∧
    (s.attachLost p).pending = s.pending := by
  unfold State.attachLost
  split <;> simp

@[simp] theorem State.attached_keeps (s : State) (p : PortId) :
    (s.attached p).now = s.now ∧
    (s.attached p).held = s.held ∧
    (s.attached p).mainPower = s.mainPower ∧
    (s.attached p).zm = s.zm ∧
    (s.attached p).bs = s.bs ∧
    (s.attached p).za = s.za ∧
    (s.attached p).pe = s.pe ∧
    (s.attached p).cld = s.cld ∧
    (s.attached p).csv = s.csv ∧
    (s.attached p).fdc = s.fdc ∧
    (s.attached p).mu = s.mu ∧
    (s.attached p).rs = s.rs ∧
    (s.attached p).image = s.image ∧
    (s.attached p).draws = s.draws ∧
    (s.attached p).pending = s.pending := by
  cases p <;> simp [State.attached]

@[simp] theorem State.trained_keeps (s : State) (p : PortId) :
    (s.trained p).now = s.now ∧
    (s.trained p).held = s.held ∧
    (s.trained p).mainPower = s.mainPower ∧
    (s.trained p).zm = s.zm ∧
    (s.trained p).bs = s.bs ∧
    (s.trained p).za = s.za ∧
    (s.trained p).pe = s.pe ∧
    (s.trained p).cld = s.cld ∧
    (s.trained p).csv = s.csv ∧
    (s.trained p).fdc = s.fdc ∧
    (s.trained p).mu = s.mu ∧
    (s.trained p).rs = s.rs ∧
    (s.trained p).image = s.image ∧
    (s.trained p).draws = s.draws ∧
    (s.trained p).pending = s.pending := by
  unfold State.trained
  split <;> simp

@[simp] theorem State.echoSent_keeps (s : State) :
    (s.echoSent).now = s.now ∧
    (s.echoSent).held = s.held ∧
    (s.echoSent).mainPower = s.mainPower ∧
    (s.echoSent).line = s.line ∧
    (s.echoSent).zm = s.zm ∧
    (s.echoSent).bs = s.bs ∧
    (s.echoSent).za = s.za ∧
    (s.echoSent).pe = s.pe ∧
    (s.echoSent).cld = s.cld ∧
    (s.echoSent).csv = s.csv ∧
    (s.echoSent).fdc = s.fdc ∧
    (s.echoSent).mu = s.mu ∧
    (s.echoSent).rs = s.rs ∧
    (s.echoSent).image = s.image ∧
    (s.echoSent).counters = s.counters ∧
    (s.echoSent).draws = s.draws ∧
    (s.echoSent).pending = s.pending := by
  simp [State.echoSent]

@[simp] theorem State.startTransmission_keeps (s : State) (p : PortId) :
    (s.startTransmission p).now = s.now ∧
    (s.startTransmission p).held = s.held ∧
    (s.startTransmission p).mainPower = s.mainPower ∧
    (s.startTransmission p).zm = s.zm ∧
    (s.startTransmission p).bs = s.bs ∧
    (s.startTransmission p).za = s.za ∧
    (s.startTransmission p).pe = s.pe ∧
    (s.startTransmission p).cld = s.cld ∧
    (s.startTransmission p).csv = s.csv ∧
    (s.startTransmission p).fdc = s.fdc ∧
    (s.startTransmission p).mu = s.mu ∧
    (s.startTransmission p).rs = s.rs ∧
    (s.startTransmission p).image = s.image ∧
    (s.startTransmission p).counters = s.counters ∧
    (s.startTransmission p).draws = s.draws ∧
    (s.startTransmission p).pending = s.pending := by
  unfold State.startTransmission
  dsimp only
  (repeat' split) <;> simp

/-! ## Requests (Chapter 10) -/

@[simp] theorem State.ping_keeps (tag : Byte) (s : State) :
    (s.ping tag).now = s.now ∧
    (s.ping tag).held = s.held ∧
    (s.ping tag).mainPower = s.mainPower ∧
    (s.ping tag).tb = s.tb ∧
    (s.ping tag).zm = s.zm ∧
    (s.ping tag).bs = s.bs ∧
    (s.ping tag).za = s.za ∧
    (s.ping tag).pe = s.pe ∧
    (s.ping tag).cld = s.cld ∧
    (s.ping tag).csv = s.csv ∧
    (s.ping tag).fdc = s.fdc ∧
    (s.ping tag).mu = s.mu ∧
    (s.ping tag).rs = s.rs ∧
    (s.ping tag).image = s.image ∧
    (s.ping tag).pending = s.pending := by
  simp [State.ping]

@[simp] theorem State.status_keeps (tag : Byte) (s : State) :
    (s.status tag).now = s.now ∧
    (s.status tag).held = s.held ∧
    (s.status tag).mainPower = s.mainPower ∧
    (s.status tag).tb = s.tb ∧
    (s.status tag).zm = s.zm ∧
    (s.status tag).bs = s.bs ∧
    (s.status tag).za = s.za ∧
    (s.status tag).pe = s.pe ∧
    (s.status tag).cld = s.cld ∧
    (s.status tag).csv = s.csv ∧
    (s.status tag).fdc = s.fdc ∧
    (s.status tag).mu = s.mu ∧
    (s.status tag).rs = s.rs ∧
    (s.status tag).image = s.image ∧
    (s.status tag).pending = s.pending := by
  simp [State.status]

@[simp] theorem State.clearCounters_keeps (s : State) (a n : Nat) :
    (s.clearCounters a n).now = s.now ∧
    (s.clearCounters a n).held = s.held ∧
    (s.clearCounters a n).mainPower = s.mainPower ∧
    (s.clearCounters a n).line = s.line ∧
    (s.clearCounters a n).tb = s.tb ∧
    (s.clearCounters a n).zm = s.zm ∧
    (s.clearCounters a n).bs = s.bs ∧
    (s.clearCounters a n).za = s.za ∧
    (s.clearCounters a n).pe = s.pe ∧
    (s.clearCounters a n).cld = s.cld ∧
    (s.clearCounters a n).csv = s.csv ∧
    (s.clearCounters a n).fdc = s.fdc ∧
    (s.clearCounters a n).mu = s.mu ∧
    (s.clearCounters a n).rs = s.rs ∧
    (s.clearCounters a n).image = s.image ∧
    (s.clearCounters a n).draws = s.draws ∧
    (s.clearCounters a n).pending = s.pending := by
  simp [State.clearCounters]

@[simp] theorem State.readRecords_keeps (tag sp : Byte) (k : Space) (a n : Nat) (c : Bool) (s : State) :
    (s.readRecords tag sp k a n c).now = s.now ∧
    (s.readRecords tag sp k a n c).held = s.held ∧
    (s.readRecords tag sp k a n c).mainPower = s.mainPower ∧
    (s.readRecords tag sp k a n c).tb = s.tb ∧
    (s.readRecords tag sp k a n c).zm = s.zm ∧
    (s.readRecords tag sp k a n c).bs = s.bs ∧
    (s.readRecords tag sp k a n c).za = s.za ∧
    (s.readRecords tag sp k a n c).pe = s.pe ∧
    (s.readRecords tag sp k a n c).cld = s.cld ∧
    (s.readRecords tag sp k a n c).csv = s.csv ∧
    (s.readRecords tag sp k a n c).fdc = s.fdc ∧
    (s.readRecords tag sp k a n c).mu = s.mu ∧
    (s.readRecords tag sp k a n c).rs = s.rs ∧
    (s.readRecords tag sp k a n c).image = s.image ∧
    (s.readRecords tag sp k a n c).draws = s.draws ∧
    (s.readRecords tag sp k a n c).pending = s.pending := by
  unfold State.readRecords
  dsimp only
  split <;> simp

@[simp] theorem State.readTable_keeps (tag sp : Byte) (a : Word16) (n c : Byte) (s : State) :
    (s.readTable tag sp a n c).now = s.now ∧
    (s.readTable tag sp a n c).held = s.held ∧
    (s.readTable tag sp a n c).mainPower = s.mainPower ∧
    (s.readTable tag sp a n c).tb = s.tb ∧
    (s.readTable tag sp a n c).zm = s.zm ∧
    (s.readTable tag sp a n c).bs = s.bs ∧
    (s.readTable tag sp a n c).za = s.za ∧
    (s.readTable tag sp a n c).pe = s.pe ∧
    (s.readTable tag sp a n c).cld = s.cld ∧
    (s.readTable tag sp a n c).csv = s.csv ∧
    (s.readTable tag sp a n c).fdc = s.fdc ∧
    (s.readTable tag sp a n c).mu = s.mu ∧
    (s.readTable tag sp a n c).rs = s.rs ∧
    (s.readTable tag sp a n c).image = s.image ∧
    (s.readTable tag sp a n c).draws = s.draws ∧
    (s.readTable tag sp a n c).pending = s.pending := by
  unfold State.readTable
  (repeat' split) <;> simp

@[simp] theorem State.changeSched_keeps (k : Bank) (a : Nat) (rs : List (Option SchedEntry)) (s : State) :
    (s.changeSched k a rs).now = s.now ∧
    (s.changeSched k a rs).held = s.held ∧
    (s.changeSched k a rs).mainPower = s.mainPower ∧
    (s.changeSched k a rs).line = s.line ∧
    (s.changeSched k a rs).tb = s.tb ∧
    (s.changeSched k a rs).zm = s.zm ∧
    (s.changeSched k a rs).za = s.za ∧
    (s.changeSched k a rs).pe = s.pe ∧
    (s.changeSched k a rs).cld = s.cld ∧
    (s.changeSched k a rs).csv = s.csv ∧
    (s.changeSched k a rs).fdc = s.fdc ∧
    (s.changeSched k a rs).mu = s.mu ∧
    (s.changeSched k a rs).rs = s.rs ∧
    (s.changeSched k a rs).image = s.image ∧
    (s.changeSched k a rs).counters = s.counters ∧
    (s.changeSched k a rs).draws = s.draws ∧
    (s.changeSched k a rs).pending = s.pending := by
  cases k <;> simp [State.changeSched]

@[simp] theorem State.rederive_keeps (s : State) :
    (s.rederive).now = s.now ∧
    (s.rederive).held = s.held ∧
    (s.rederive).mainPower = s.mainPower ∧
    (s.rederive).tb = s.tb ∧
    (s.rederive).zm = s.zm ∧
    (s.rederive).za = s.za ∧
    (s.rederive).pe = s.pe ∧
    (s.rederive).cld = s.cld ∧
    (s.rederive).csv = s.csv ∧
    (s.rederive).fdc = s.fdc ∧
    (s.rederive).mu = s.mu ∧
    (s.rederive).rs = s.rs ∧
    (s.rederive).image = s.image ∧
    (s.rederive).draws = s.draws ∧
    (s.rederive).pending = s.pending := by
  unfold State.rederive
  split <;> simp

@[simp] theorem State.changeCalendar_keeps (a : Nat) (rs : List (Option CalendarEntry)) (s : State) :
    (s.changeCalendar a rs).now = s.now ∧
    (s.changeCalendar a rs).held = s.held ∧
    (s.changeCalendar a rs).mainPower = s.mainPower ∧
    (s.changeCalendar a rs).tb = s.tb ∧
    (s.changeCalendar a rs).zm = s.zm ∧
    (s.changeCalendar a rs).za = s.za ∧
    (s.changeCalendar a rs).pe = s.pe ∧
    (s.changeCalendar a rs).cld = s.cld ∧
    (s.changeCalendar a rs).csv = s.csv ∧
    (s.changeCalendar a rs).fdc = s.fdc ∧
    (s.changeCalendar a rs).mu = s.mu ∧
    (s.changeCalendar a rs).rs = s.rs ∧
    (s.changeCalendar a rs).image = s.image ∧
    (s.changeCalendar a rs).draws = s.draws ∧
    (s.changeCalendar a rs).pending = s.pending := by
  simp [State.changeCalendar]

@[simp] theorem State.changeWeek_keeps (a : Nat) (rs : List (Option Plan)) (s : State) :
    (s.changeWeek a rs).now = s.now ∧
    (s.changeWeek a rs).held = s.held ∧
    (s.changeWeek a rs).mainPower = s.mainPower ∧
    (s.changeWeek a rs).tb = s.tb ∧
    (s.changeWeek a rs).zm = s.zm ∧
    (s.changeWeek a rs).za = s.za ∧
    (s.changeWeek a rs).pe = s.pe ∧
    (s.changeWeek a rs).cld = s.cld ∧
    (s.changeWeek a rs).csv = s.csv ∧
    (s.changeWeek a rs).fdc = s.fdc ∧
    (s.changeWeek a rs).mu = s.mu ∧
    (s.changeWeek a rs).rs = s.rs ∧
    (s.changeWeek a rs).image = s.image ∧
    (s.changeWeek a rs).draws = s.draws ∧
    (s.changeWeek a rs).pending = s.pending := by
  simp [State.changeWeek]

@[simp] theorem State.changeWindows_keeps (a : Nat) (rs : List (Option Window)) (s : State) :
    (s.changeWindows a rs).now = s.now ∧
    (s.changeWindows a rs).held = s.held ∧
    (s.changeWindows a rs).mainPower = s.mainPower ∧
    (s.changeWindows a rs).line = s.line ∧
    (s.changeWindows a rs).tb = s.tb ∧
    (s.changeWindows a rs).bs = s.bs ∧
    (s.changeWindows a rs).za = s.za ∧
    (s.changeWindows a rs).pe = s.pe ∧
    (s.changeWindows a rs).cld = s.cld ∧
    (s.changeWindows a rs).csv = s.csv ∧
    (s.changeWindows a rs).fdc = s.fdc ∧
    (s.changeWindows a rs).mu = s.mu ∧
    (s.changeWindows a rs).rs = s.rs ∧
    (s.changeWindows a rs).image = s.image ∧
    (s.changeWindows a rs).counters = s.counters ∧
    (s.changeWindows a rs).draws = s.draws ∧
    (s.changeWindows a rs).pending = s.pending := by
  simp [State.changeWindows]

@[simp] theorem State.changeAttrs_keeps (a : Nat) (rs : List (Option ZoneAttr)) (s : State) :
    (s.changeAttrs a rs).now = s.now ∧
    (s.changeAttrs a rs).held = s.held ∧
    (s.changeAttrs a rs).mainPower = s.mainPower ∧
    (s.changeAttrs a rs).line = s.line ∧
    (s.changeAttrs a rs).tb = s.tb ∧
    (s.changeAttrs a rs).bs = s.bs ∧
    (s.changeAttrs a rs).pe = s.pe ∧
    (s.changeAttrs a rs).cld = s.cld ∧
    (s.changeAttrs a rs).fdc = s.fdc ∧
    (s.changeAttrs a rs).mu = s.mu ∧
    (s.changeAttrs a rs).rs = s.rs ∧
    (s.changeAttrs a rs).image = s.image ∧
    (s.changeAttrs a rs).pending = s.pending := by
  unfold State.changeAttrs
  dsimp only
  split <;> simp

@[simp] theorem State.changeTones_keeps (a : Nat) (rs : List (Option TonePattern)) (s : State) :
    (s.changeTones a rs).now = s.now ∧
    (s.changeTones a rs).held = s.held ∧
    (s.changeTones a rs).mainPower = s.mainPower ∧
    (s.changeTones a rs).line = s.line ∧
    (s.changeTones a rs).tb = s.tb ∧
    (s.changeTones a rs).zm = s.zm ∧
    (s.changeTones a rs).bs = s.bs ∧
    (s.changeTones a rs).pe = s.pe ∧
    (s.changeTones a rs).cld = s.cld ∧
    (s.changeTones a rs).csv = s.csv ∧
    (s.changeTones a rs).fdc = s.fdc ∧
    (s.changeTones a rs).mu = s.mu ∧
    (s.changeTones a rs).rs = s.rs ∧
    (s.changeTones a rs).image = s.image ∧
    (s.changeTones a rs).counters = s.counters ∧
    (s.changeTones a rs).draws = s.draws ∧
    (s.changeTones a rs).pending = s.pending := by
  simp [State.changeTones]

@[simp] theorem foldClocks_keeps (f : LineNo → ClockCfg) (l : List LineNo) (s : State) :
    (l.foldl (fun t k => t.clockCfgChanged k (f k)) s).now = s.now ∧
    (l.foldl (fun t k => t.clockCfgChanged k (f k)) s).held = s.held ∧
    (l.foldl (fun t k => t.clockCfgChanged k (f k)) s).mainPower = s.mainPower ∧
    (l.foldl (fun t k => t.clockCfgChanged k (f k)) s).tb = s.tb ∧
    (l.foldl (fun t k => t.clockCfgChanged k (f k)) s).zm = s.zm ∧
    (l.foldl (fun t k => t.clockCfgChanged k (f k)) s).bs = s.bs ∧
    (l.foldl (fun t k => t.clockCfgChanged k (f k)) s).za = s.za ∧
    (l.foldl (fun t k => t.clockCfgChanged k (f k)) s).pe = s.pe ∧
    (l.foldl (fun t k => t.clockCfgChanged k (f k)) s).fdc = s.fdc ∧
    (l.foldl (fun t k => t.clockCfgChanged k (f k)) s).mu = s.mu ∧
    (l.foldl (fun t k => t.clockCfgChanged k (f k)) s).image = s.image ∧
    (l.foldl (fun t k => t.clockCfgChanged k (f k)) s).pending = s.pending := by
  exact ⟨foldl_part State.now (by intros; simp) _ _,
    foldl_part State.held (by intros; simp) _ _,
    foldl_part State.mainPower (by intros; simp) _ _,
    foldl_part State.tb (by intros; simp) _ _,
    foldl_part State.zm (by intros; simp) _ _,
    foldl_part State.bs (by intros; simp) _ _,
    foldl_part State.za (by intros; simp) _ _,
    foldl_part State.pe (by intros; simp) _ _,
    foldl_part State.fdc (by intros; simp) _ _,
    foldl_part State.mu (by intros; simp) _ _,
    foldl_part State.image (by intros; simp) _ _,
    foldl_part State.pending (by intros; simp) _ _⟩

@[simp] theorem State.changeClocks_keeps (a : Nat) (rs : List (Option ClockCfg)) (s : State) :
    (s.changeClocks a rs).now = s.now ∧
    (s.changeClocks a rs).held = s.held ∧
    (s.changeClocks a rs).mainPower = s.mainPower ∧
    (s.changeClocks a rs).tb = s.tb ∧
    (s.changeClocks a rs).zm = s.zm ∧
    (s.changeClocks a rs).bs = s.bs ∧
    (s.changeClocks a rs).za = s.za ∧
    (s.changeClocks a rs).pe = s.pe ∧
    (s.changeClocks a rs).fdc = s.fdc ∧
    (s.changeClocks a rs).mu = s.mu ∧
    (s.changeClocks a rs).image = s.image ∧
    (s.changeClocks a rs).pending = s.pending := by
  simp [State.changeClocks]

@[simp] theorem State.scanAfterWrite_keeps (s : State) (x : Scan) (j : Bool) :
    (s.scanAfterWrite x j).now = s.now ∧
    (s.scanAfterWrite x j).held = s.held ∧
    (s.scanAfterWrite x j).mainPower = s.mainPower ∧
    (s.scanAfterWrite x j).line = s.line ∧
    (s.scanAfterWrite x j).tb = s.tb ∧
    (s.scanAfterWrite x j).zm = s.zm ∧
    (s.scanAfterWrite x j).bs = s.bs ∧
    (s.scanAfterWrite x j).za = s.za ∧
    (s.scanAfterWrite x j).pe = s.pe ∧
    (s.scanAfterWrite x j).cld = s.cld ∧
    (s.scanAfterWrite x j).fdc = s.fdc ∧
    (s.scanAfterWrite x j).mu = s.mu ∧
    (s.scanAfterWrite x j).rs = s.rs ∧
    (s.scanAfterWrite x j).image = s.image ∧
    (s.scanAfterWrite x j).pending = s.pending := by
  unfold State.scanAfterWrite
  (repeat' split) <;> simp

@[simp] theorem foldDisable_keeps (l : List Circuit) (s : State) :
    (l.foldl State.disable s).now = s.now ∧
    (l.foldl State.disable s).held = s.held ∧
    (l.foldl State.disable s).mainPower = s.mainPower ∧
    (l.foldl State.disable s).tb = s.tb ∧
    (l.foldl State.disable s).zm = s.zm ∧
    (l.foldl State.disable s).bs = s.bs ∧
    (l.foldl State.disable s).pe = s.pe ∧
    (l.foldl State.disable s).fdc = s.fdc ∧
    (l.foldl State.disable s).mu = s.mu ∧
    (l.foldl State.disable s).rs = s.rs ∧
    (l.foldl State.disable s).image = s.image ∧
    (l.foldl State.disable s).pending = s.pending := by
  exact ⟨foldl_part State.now (by intros; simp) _ _,
    foldl_part State.held (by intros; simp) _ _,
    foldl_part State.mainPower (by intros; simp) _ _,
    foldl_part State.tb (by intros; simp) _ _,
    foldl_part State.zm (by intros; simp) _ _,
    foldl_part State.bs (by intros; simp) _ _,
    foldl_part State.pe (by intros; simp) _ _,
    foldl_part State.fdc (by intros; simp) _ _,
    foldl_part State.mu (by intros; simp) _ _,
    foldl_part State.rs (by intros; simp) _ _,
    foldl_part State.image (by intros; simp) _ _,
    foldl_part State.pending (by intros; simp) _ _⟩

@[simp] theorem State.changeSups_keeps (a : Nat) (rs : List (Option SupCfg)) (s : State) :
    (s.changeSups a rs).now = s.now ∧
    (s.changeSups a rs).held = s.held ∧
    (s.changeSups a rs).mainPower = s.mainPower ∧
    (s.changeSups a rs).tb = s.tb ∧
    (s.changeSups a rs).zm = s.zm ∧
    (s.changeSups a rs).bs = s.bs ∧
    (s.changeSups a rs).pe = s.pe ∧
    (s.changeSups a rs).fdc = s.fdc ∧
    (s.changeSups a rs).mu = s.mu ∧
    (s.changeSups a rs).rs = s.rs ∧
    (s.changeSups a rs).image = s.image ∧
    (s.changeSups a rs).pending = s.pending := by
  simp [State.changeSups]

@[simp] theorem State.changeDrills_keeps (a : Nat) (rs : List (Option DrillProg)) (s : State) :
    (s.changeDrills a rs).now = s.now ∧
    (s.changeDrills a rs).held = s.held ∧
    (s.changeDrills a rs).mainPower = s.mainPower ∧
    (s.changeDrills a rs).line = s.line ∧
    (s.changeDrills a rs).tb = s.tb ∧
    (s.changeDrills a rs).zm = s.zm ∧
    (s.changeDrills a rs).bs = s.bs ∧
    (s.changeDrills a rs).za = s.za ∧
    (s.changeDrills a rs).pe = s.pe ∧
    (s.changeDrills a rs).cld = s.cld ∧
    (s.changeDrills a rs).csv = s.csv ∧
    (s.changeDrills a rs).mu = s.mu ∧
    (s.changeDrills a rs).rs = s.rs ∧
    (s.changeDrills a rs).image = s.image ∧
    (s.changeDrills a rs).counters = s.counters ∧
    (s.changeDrills a rs).draws = s.draws ∧
    (s.changeDrills a rs).pending = s.pending := by
  simp [State.changeDrills]

@[simp] theorem State.changeNode_keeps (a : Nat) (rs : List (Option NodeCfg)) (s : State) :
    (s.changeNode a rs).now = s.now ∧
    (s.changeNode a rs).held = s.held ∧
    (s.changeNode a rs).mainPower = s.mainPower ∧
    (s.changeNode a rs).line = s.line ∧
    (s.changeNode a rs).zm = s.zm ∧
    (s.changeNode a rs).bs = s.bs ∧
    (s.changeNode a rs).za = s.za ∧
    (s.changeNode a rs).pe = s.pe ∧
    (s.changeNode a rs).cld = s.cld ∧
    (s.changeNode a rs).csv = s.csv ∧
    (s.changeNode a rs).fdc = s.fdc ∧
    (s.changeNode a rs).rs = s.rs ∧
    (s.changeNode a rs).image = s.image ∧
    (s.changeNode a rs).counters = s.counters ∧
    (s.changeNode a rs).draws = s.draws ∧
    (s.changeNode a rs).pending = s.pending := by
  unfold State.changeNode
  dsimp only
  split <;> simp

@[simp] theorem State.setAddr_keeps (h : Hdr) (a : Word16) (s : State) :
    (s.setAddr h a).now = s.now ∧
    (s.setAddr h a).held = s.held ∧
    (s.setAddr h a).mainPower = s.mainPower ∧
    (s.setAddr h a).tb = s.tb ∧
    (s.setAddr h a).zm = s.zm ∧
    (s.setAddr h a).bs = s.bs ∧
    (s.setAddr h a).za = s.za ∧
    (s.setAddr h a).pe = s.pe ∧
    (s.setAddr h a).cld = s.cld ∧
    (s.setAddr h a).csv = s.csv ∧
    (s.setAddr h a).fdc = s.fdc ∧
    (s.setAddr h a).rs = s.rs ∧
    (s.setAddr h a).image = s.image ∧
    (s.setAddr h a).draws = s.draws ∧
    (s.setAddr h a).pending = s.pending := by
  unfold State.setAddr
  dsimp only
  (repeat' split) <;> simp

@[simp] theorem State.activate_keeps (tag : Byte) (s : State) :
    (s.activate tag).now = s.now ∧
    (s.activate tag).held = s.held ∧
    (s.activate tag).mainPower = s.mainPower ∧
    (s.activate tag).tb = s.tb ∧
    (s.activate tag).zm = s.zm ∧
    (s.activate tag).za = s.za ∧
    (s.activate tag).pe = s.pe ∧
    (s.activate tag).cld = s.cld ∧
    (s.activate tag).csv = s.csv ∧
    (s.activate tag).fdc = s.fdc ∧
    (s.activate tag).mu = s.mu ∧
    (s.activate tag).rs = s.rs ∧
    (s.activate tag).image = s.image ∧
    (s.activate tag).draws = s.draws ∧
    (s.activate tag).pending = s.pending := by
  unfold State.activate
  (repeat' split) <;> simp

@[simp] theorem State.takeResync_keeps (tag : Byte) (k : LineNo) (i : Nat) (p : Option Polarity) (s : State) :
    (s.takeResync tag k i p).now = s.now ∧
    (s.takeResync tag k i p).held = s.held ∧
    (s.takeResync tag k i p).mainPower = s.mainPower ∧
    (s.takeResync tag k i p).tb = s.tb ∧
    (s.takeResync tag k i p).zm = s.zm ∧
    (s.takeResync tag k i p).bs = s.bs ∧
    (s.takeResync tag k i p).za = s.za ∧
    (s.takeResync tag k i p).pe = s.pe ∧
    (s.takeResync tag k i p).fdc = s.fdc ∧
    (s.takeResync tag k i p).mu = s.mu ∧
    (s.takeResync tag k i p).image = s.image ∧
    (s.takeResync tag k i p).pending = s.pending := by
  unfold State.takeResync
  dsimp only
  split <;> simp

@[simp] theorem State.resyncClock_keeps (tag l : Byte) (i : Word16) (p : Byte) (s : State) :
    (s.resyncClock tag l i p).now = s.now ∧
    (s.resyncClock tag l i p).held = s.held ∧
    (s.resyncClock tag l i p).mainPower = s.mainPower ∧
    (s.resyncClock tag l i p).tb = s.tb ∧
    (s.resyncClock tag l i p).zm = s.zm ∧
    (s.resyncClock tag l i p).bs = s.bs ∧
    (s.resyncClock tag l i p).za = s.za ∧
    (s.resyncClock tag l i p).pe = s.pe ∧
    (s.resyncClock tag l i p).fdc = s.fdc ∧
    (s.resyncClock tag l i p).mu = s.mu ∧
    (s.resyncClock tag l i p).image = s.image ∧
    (s.resyncClock tag l i p).pending = s.pending := by
  unfold State.resyncClock
  dsimp only
  (repeat' split) <;> simp

@[simp] theorem State.recover_keeps (tag c : Byte) (s : State) :
    (s.recover tag c).now = s.now ∧
    (s.recover tag c).held = s.held ∧
    (s.recover tag c).mainPower = s.mainPower ∧
    (s.recover tag c).tb = s.tb ∧
    (s.recover tag c).zm = s.zm ∧
    (s.recover tag c).bs = s.bs ∧
    (s.recover tag c).pe = s.pe ∧
    (s.recover tag c).fdc = s.fdc ∧
    (s.recover tag c).mu = s.mu ∧
    (s.recover tag c).rs = s.rs ∧
    (s.recover tag c).image = s.image ∧
    (s.recover tag c).pending = s.pending := by
  unfold State.recover
  dsimp only
  (repeat' split) <;> simp

@[simp] theorem State.setForce_keeps (s : State) (o : Output) (f : ForceState) :
    (s.setForce o f).now = s.now ∧
    (s.setForce o f).held = s.held ∧
    (s.setForce o f).mainPower = s.mainPower ∧
    (s.setForce o f).line = s.line ∧
    (s.setForce o f).tb = s.tb ∧
    (s.setForce o f).zm = s.zm ∧
    (s.setForce o f).bs = s.bs ∧
    (s.setForce o f).pe = s.pe ∧
    (s.setForce o f).cld = s.cld ∧
    (s.setForce o f).csv = s.csv ∧
    (s.setForce o f).fdc = s.fdc ∧
    (s.setForce o f).mu = s.mu ∧
    (s.setForce o f).rs = s.rs ∧
    (s.setForce o f).image = s.image ∧
    (s.setForce o f).counters = s.counters ∧
    (s.setForce o f).draws = s.draws ∧
    (s.setForce o f).pending = s.pending := by
  simp [State.setForce]

@[simp] theorem State.applyOn_keeps (o : Output) (s : State) :
    (s.applyOn o).now = s.now ∧
    (s.applyOn o).held = s.held ∧
    (s.applyOn o).mainPower = s.mainPower ∧
    (s.applyOn o).line = s.line ∧
    (s.applyOn o).tb = s.tb ∧
    (s.applyOn o).zm = s.zm ∧
    (s.applyOn o).bs = s.bs ∧
    (s.applyOn o).pe = s.pe ∧
    (s.applyOn o).cld = s.cld ∧
    (s.applyOn o).fdc = s.fdc ∧
    (s.applyOn o).mu = s.mu ∧
    (s.applyOn o).rs = s.rs ∧
    (s.applyOn o).image = s.image ∧
    (s.applyOn o).pending = s.pending := by
  unfold State.applyOn
  split <;> simp

@[simp] theorem State.applyOff_keeps (o : Output) (s : State) :
    (s.applyOff o).now = s.now ∧
    (s.applyOff o).held = s.held ∧
    (s.applyOff o).mainPower = s.mainPower ∧
    (s.applyOff o).line = s.line ∧
    (s.applyOff o).tb = s.tb ∧
    (s.applyOff o).zm = s.zm ∧
    (s.applyOff o).bs = s.bs ∧
    (s.applyOff o).pe = s.pe ∧
    (s.applyOff o).cld = s.cld ∧
    (s.applyOff o).fdc = s.fdc ∧
    (s.applyOff o).mu = s.mu ∧
    (s.applyOff o).rs = s.rs ∧
    (s.applyOff o).image = s.image ∧
    (s.applyOff o).pending = s.pending := by
  unfold State.applyOff
  split <;> simp

@[simp] theorem State.applyRelease_keeps (o : Output) (s : State) :
    (s.applyRelease o).now = s.now ∧
    (s.applyRelease o).held = s.held ∧
    (s.applyRelease o).mainPower = s.mainPower ∧
    (s.applyRelease o).line = s.line ∧
    (s.applyRelease o).tb = s.tb ∧
    (s.applyRelease o).zm = s.zm ∧
    (s.applyRelease o).bs = s.bs ∧
    (s.applyRelease o).pe = s.pe ∧
    (s.applyRelease o).cld = s.cld ∧
    (s.applyRelease o).fdc = s.fdc ∧
    (s.applyRelease o).mu = s.mu ∧
    (s.applyRelease o).rs = s.rs ∧
    (s.applyRelease o).image = s.image ∧
    (s.applyRelease o).pending = s.pending := by
  simp [State.applyRelease]

@[simp] theorem State.forceOn_keeps (tag c : Byte) (s : State) :
    (s.forceOn tag c).now = s.now ∧
    (s.forceOn tag c).held = s.held ∧
    (s.forceOn tag c).mainPower = s.mainPower ∧
    (s.forceOn tag c).tb = s.tb ∧
    (s.forceOn tag c).zm = s.zm ∧
    (s.forceOn tag c).bs = s.bs ∧
    (s.forceOn tag c).pe = s.pe ∧
    (s.forceOn tag c).cld = s.cld ∧
    (s.forceOn tag c).fdc = s.fdc ∧
    (s.forceOn tag c).mu = s.mu ∧
    (s.forceOn tag c).rs = s.rs ∧
    (s.forceOn tag c).image = s.image ∧
    (s.forceOn tag c).pending = s.pending := by
  unfold State.forceOn
  (repeat' split) <;> simp

@[simp] theorem State.forceOff_keeps (tag c : Byte) (s : State) :
    (s.forceOff tag c).now = s.now ∧
    (s.forceOff tag c).held = s.held ∧
    (s.forceOff tag c).mainPower = s.mainPower ∧
    (s.forceOff tag c).tb = s.tb ∧
    (s.forceOff tag c).zm = s.zm ∧
    (s.forceOff tag c).bs = s.bs ∧
    (s.forceOff tag c).pe = s.pe ∧
    (s.forceOff tag c).cld = s.cld ∧
    (s.forceOff tag c).fdc = s.fdc ∧
    (s.forceOff tag c).mu = s.mu ∧
    (s.forceOff tag c).rs = s.rs ∧
    (s.forceOff tag c).image = s.image ∧
    (s.forceOff tag c).pending = s.pending := by
  unfold State.forceOff
  (repeat' split) <;> simp

@[simp] theorem State.forceRelease_keeps (tag c : Byte) (s : State) :
    (s.forceRelease tag c).now = s.now ∧
    (s.forceRelease tag c).held = s.held ∧
    (s.forceRelease tag c).mainPower = s.mainPower ∧
    (s.forceRelease tag c).tb = s.tb ∧
    (s.forceRelease tag c).zm = s.zm ∧
    (s.forceRelease tag c).bs = s.bs ∧
    (s.forceRelease tag c).pe = s.pe ∧
    (s.forceRelease tag c).cld = s.cld ∧
    (s.forceRelease tag c).fdc = s.fdc ∧
    (s.forceRelease tag c).mu = s.mu ∧
    (s.forceRelease tag c).rs = s.rs ∧
    (s.forceRelease tag c).image = s.image ∧
    (s.forceRelease tag c).pending = s.pending := by
  unfold State.forceRelease
  (repeat' split) <;> simp

@[simp] theorem State.saveImage_keeps (tag : Byte) (s : State) :
    (s.saveImage tag).now = s.now ∧
    (s.saveImage tag).held = s.held ∧
    (s.saveImage tag).mainPower = s.mainPower ∧
    (s.saveImage tag).tb = s.tb ∧
    (s.saveImage tag).zm = s.zm ∧
    (s.saveImage tag).bs = s.bs ∧
    (s.saveImage tag).za = s.za ∧
    (s.saveImage tag).pe = s.pe ∧
    (s.saveImage tag).cld = s.cld ∧
    (s.saveImage tag).csv = s.csv ∧
    (s.saveImage tag).fdc = s.fdc ∧
    (s.saveImage tag).rs = s.rs ∧
    (s.saveImage tag).draws = s.draws ∧
    (s.saveImage tag).pending = s.pending := by
  unfold State.saveImage
  split <;> simp

@[simp] theorem State.saveDone_keeps (s : State) :
    (s.saveDone).now = s.now ∧
    (s.saveDone).held = s.held ∧
    (s.saveDone).mainPower = s.mainPower ∧
    (s.saveDone).tb = s.tb ∧
    (s.saveDone).zm = s.zm ∧
    (s.saveDone).bs = s.bs ∧
    (s.saveDone).za = s.za ∧
    (s.saveDone).pe = s.pe ∧
    (s.saveDone).cld = s.cld ∧
    (s.saveDone).csv = s.csv ∧
    (s.saveDone).fdc = s.fdc ∧
    (s.saveDone).rs = s.rs ∧
    (s.saveDone).draws = s.draws ∧
    (s.saveDone).pending = s.pending := by
  unfold State.saveDone
  split <;> simp

/-! ## The resets (R192, R24, R191) -/

@[simp] theorem State.lineResetValues_keeps (s : State) :
    (s.lineResetValues).now = s.now ∧
    (s.lineResetValues).held = s.held ∧
    (s.lineResetValues).mainPower = s.mainPower ∧
    (s.lineResetValues).rs = s.rs ∧
    (s.lineResetValues).image = s.image ∧
    (s.lineResetValues).pending = s.pending := by
  simp [State.lineResetValues]

@[simp] theorem foldEvaluate_keeps (l : List LineNo) (s : State) :
    (l.foldl State.evaluate s).now = s.now ∧
    (l.foldl State.evaluate s).held = s.held ∧
    (l.foldl State.evaluate s).mainPower = s.mainPower ∧
    (l.foldl State.evaluate s).tb = s.tb ∧
    (l.foldl State.evaluate s).zm = s.zm ∧
    (l.foldl State.evaluate s).bs = s.bs ∧
    (l.foldl State.evaluate s).za = s.za ∧
    (l.foldl State.evaluate s).pe = s.pe ∧
    (l.foldl State.evaluate s).fdc = s.fdc ∧
    (l.foldl State.evaluate s).mu = s.mu ∧
    (l.foldl State.evaluate s).rs = s.rs ∧
    (l.foldl State.evaluate s).image = s.image ∧
    (l.foldl State.evaluate s).pending = s.pending := by
  exact ⟨foldl_part State.now (by intros; simp) _ _,
    foldl_part State.held (by intros; simp) _ _,
    foldl_part State.mainPower (by intros; simp) _ _,
    foldl_part State.tb (by intros; simp) _ _,
    foldl_part State.zm (by intros; simp) _ _,
    foldl_part State.bs (by intros; simp) _ _,
    foldl_part State.za (by intros; simp) _ _,
    foldl_part State.pe (by intros; simp) _ _,
    foldl_part State.fdc (by intros; simp) _ _,
    foldl_part State.mu (by intros; simp) _ _,
    foldl_part State.rs (by intros; simp) _ _,
    foldl_part State.image (by intros; simp) _ _,
    foldl_part State.pending (by intros; simp) _ _⟩

@[simp] theorem State.lineReset_keeps (s : State) :
    (s.lineReset).now = s.now ∧
    (s.lineReset).held = s.held ∧
    (s.lineReset).mainPower = s.mainPower ∧
    (s.lineReset).rs = s.rs ∧
    (s.lineReset).image = s.image ∧
    (s.lineReset).pending = s.pending := by
  unfold State.lineReset
  dsimp only
  (repeat' split) <;> simp

@[simp] theorem State.askLineReset_keeps (tag : Byte) (s : State) :
    (s.askLineReset tag).now = s.now ∧
    (s.askLineReset tag).held = s.held ∧
    (s.askLineReset tag).mainPower = s.mainPower ∧
    (s.askLineReset tag).rs = s.rs ∧
    (s.askLineReset tag).image = s.image ∧
    (s.askLineReset tag).pending = s.pending := by
  unfold State.askLineReset
  dsimp only
  (repeat' split) <;> simp

@[simp] theorem State.transmissionEnds_keeps (s : State) (p : PortId) :
    (s.transmissionEnds p).now = s.now ∧
    (s.transmissionEnds p).held = s.held ∧
    (s.transmissionEnds p).mainPower = s.mainPower ∧
    (s.transmissionEnds p).rs = s.rs ∧
    (s.transmissionEnds p).image = s.image ∧
    (s.transmissionEnds p).pending = s.pending := by
  unfold State.transmissionEnds
  dsimp only
  (repeat' split) <;> simp

@[simp] theorem State.portLost_keeps (s : State) (l : List QItem) (p : PortId) :
    (s.portLost l p).now = s.now ∧
    (s.portLost l p).held = s.held ∧
    (s.portLost l p).mainPower = s.mainPower ∧
    (s.portLost l p).rs = s.rs ∧
    (s.portLost l p).image = s.image ∧
    (s.portLost l p).pending = s.pending := by
  unfold State.portLost
  dsimp only
  (repeat' split) <;> simp

@[simp] theorem State.signalLost_keeps (s : State) (p : PortId) :
    (s.signalLost p).now = s.now ∧
    (s.signalLost p).held = s.held ∧
    (s.signalLost p).mainPower = s.mainPower ∧
    (s.signalLost p).rs = s.rs ∧
    (s.signalLost p).image = s.image ∧
    (s.signalLost p).pending = s.pending := by
  unfold State.signalLost
  dsimp only
  (repeat' split) <;> simp

@[simp] theorem State.backupLost_keeps (s : State) :
    (s.backupLost).now = s.now ∧
    (s.backupLost).held = s.held ∧
    (s.backupLost).mainPower = s.mainPower ∧
    (s.backupLost).line = s.line ∧
    (s.backupLost).tb = s.tb ∧
    (s.backupLost).zm = s.zm ∧
    (s.backupLost).bs = s.bs ∧
    (s.backupLost).za = s.za ∧
    (s.backupLost).pe = s.pe ∧
    (s.backupLost).cld = s.cld ∧
    (s.backupLost).csv = s.csv ∧
    (s.backupLost).fdc = s.fdc ∧
    (s.backupLost).mu = s.mu ∧
    (s.backupLost).image = s.image ∧
    (s.backupLost).counters = s.counters ∧
    (s.backupLost).draws = s.draws ∧
    (s.backupLost).pending = s.pending := by
  simp [State.backupLost]

@[simp] theorem State.startBackup_keeps (s : State) :
    (s.startBackup).now = s.now ∧
    (s.startBackup).held = s.held ∧
    (s.startBackup).mainPower = s.mainPower ∧
    (s.startBackup).tb = s.tb ∧
    (s.startBackup).zm = s.zm ∧
    (s.startBackup).pe = s.pe ∧
    (s.startBackup).mu = s.mu ∧
    (s.startBackup).rs = s.rs ∧
    (s.startBackup).image = s.image ∧
    (s.startBackup).pending = s.pending := by
  simp [State.startBackup]

end Sys2Proof.Machine
end

