-- ==== Sys2Proof/Laws/Ops.lean ====
section
/-! SUPPORT. What the shared operations can do, said once for each: time and dispatch, the queues, notices and replies, the
reception of a frame, the counters' bound, the evaluation of a clock line, and the checks of the image. -/

namespace Sys2Proof.Machine

/-! ## Outcomes and time -/

@[simp] theorem carried_true (t : State) : carried true t = .next t := rfl

theorem carried_next {b : Bool} {t u : State} (h : carried b t = .next u) : b = true ∧ u = t := by
  cases b with
  | false => cases h
  | true => exact ⟨rfl, (Host.Outcome.next.inj h).symm⟩

/-- An event of the running node acts on the state dt µs later. -/
theorem live_running {dt : Nat} {act : State → State} {s : State} (h : s.held = false) :
    live dt act s = act (s.elapse dt) := by
  simp [live, h]

/-- While the node is held in reset only time passes. -/
theorem live_held {dt : Nat} {act : State → State} {s : State} (h : s.held = true) :
    live dt act s = s.elapse dt := by
  simp [live, h]

/-- R1: dt µs pass. -/
theorem elapse_cases (s : State) (dt : Nat) :
    (s.elapse dt).tb = s.tb ∨ (s.elapse dt).tb = { s.tb with phase := s.tb.phase + dt } := by
  unfold State.elapse
  split
  · exact .inl rfl
  · exact .inr rfl

/-- R12: a lag in which no local millisecond ends only lets its µs pass. -/
theorem passLag_within {s : State} {lag : Nat} (h : s.tb.phase + lag < 1000) (b : Bool) :
    s.passLag lag b = s.elapse lag := by
  unfold State.passLag
  rw [Nat.div_eq_of_lt h]
  simp [State.localTicks]

/-! ## Queues (R37) -/

/-- A frame that joins stands at the tail of its queue; one that finds it full is counted and no queue changes. -/
theorem join_cases (s : State) (q : QueueId) (i : QItem) :
    ((s.queue q).length < q.capacity ∧ s.join q i = s.setQueue q (s.queue q ++ [i])) ∨
    (q.capacity ≤ (s.queue q).length ∧ s.join q i = s.count q.fullCounter) := by
  unfold State.join State.hasRoom
  by_cases h : (s.queue q).length < q.capacity
  · exact .inl ⟨h, by simp [h]⟩
  · exact .inr ⟨by omega, by simp [h]⟩

@[simp] theorem queue_countN (s : State) (c : Counter) (k : Nat) (q : QueueId) : (s.countN c k).queue q = s.queue q := by
  cases q <;> rfl

@[simp] theorem queue_count (s : State) (c : Counter) (q : QueueId) : (s.count c).queue q = s.queue q :=
  queue_countN s c 1 q

/-- R37: a join keeps every queue within its capacity. -/
theorem join_bounded (s : State) (q : QueueId) (i : QItem) (h : s.queuesBounded) : (s.join q i).queuesBounded := by
  intro r
  obtain ⟨hr, he⟩ | ⟨-, he⟩ := join_cases s q i
  · rw [he]
    by_cases hq : r = q
    · subst hq
      simp
      omega
    · rw [State.queue_setQueue_ne s _ hq]
      exact h r
  · rw [he, queue_count]
    exact h r

/-- R176, R184: an own frame joins UP normal, or is dropped there and counted twice. -/
theorem joinOwn_cases (s : State) (f : Frame) (g : Origin) (c : Counter) :
    (s.hasRoom .upNormal = true ∧ s.joinOwn f g c = s.setQueue .upNormal (s.line.up.normal ++ [⟨f, none, g⟩])) ∨
    (s.hasRoom .upNormal = false ∧ s.joinOwn f g c = (s.count .unFull).count c) := by
  unfold State.joinOwn State.join
  cases h : s.hasRoom .upNormal with
  | true => exact .inl ⟨rfl, by simp [State.queue]⟩
  | false => exact .inr ⟨rfl, by simp [QueueId.fullCounter]⟩

/-- R184: a notice of a class that is not enabled is not made; one that is made joins UP normal or is lost. -/
theorem raise_cases (s : State) (c : NoticeClass) (k : Nat) (a : List Byte) :
    (c.enabled s.mu.node.enables = false ∧ s.raise c k a = s) ∨
    (c.enabled s.mu.node.enables = true ∧ s.hasRoom .upNormal = true ∧
      s.raise c k a =
        s.setQueue .upNormal (s.line.up.normal ++ [⟨ownFrame 0x42 0 (s.noticePayload c k a), none, .own⟩])) ∨
    (c.enabled s.mu.node.enables = true ∧ s.hasRoom .upNormal = false ∧
      s.raise c k a = (s.count .unFull).count .noticesLost) := by
  unfold State.raise
  cases h : c.enabled s.mu.node.enables with
  | false => exact .inl ⟨rfl, by simp⟩
  | true =>
    obtain ⟨hr, he⟩ | ⟨hr, he⟩ := joinOwn_cases s (ownFrame 0x42 0 (s.noticePayload c k a)) .own .noticesLost
    · exact .inr (.inl ⟨rfl, hr, by rw [if_pos rfl, he]⟩)
    · exact .inr (.inr ⟨rfl, hr, by rw [if_pos rfl, he]⟩)

/-- R176: a reply of OK joins UP normal, or is dropped there and counted. -/
theorem ok_cases (s : State) (tag req : Byte) (r : List Byte) :
    (s.hasRoom .upNormal = true ∧
      s.reply tag req .ok r = s.setQueue .upNormal (s.line.up.normal ++ [⟨replyFrame tag req .ok r, none, .own⟩])) ∨
    (s.hasRoom .upNormal = false ∧ s.reply tag req .ok r = (s.count .unFull).count .repliesLost) := by
  unfold State.reply
  simpa using joinOwn_cases s (replyFrame tag req .ok r) .own .repliesLost

/-- R184: no notice takes a queue past its capacity. -/
theorem raise_bounded (s : State) (c : NoticeClass) (k : Nat) (a : List Byte) (h : s.queuesBounded) :
    (s.raise c k a).queuesBounded := by
  unfold State.raise State.joinOwn
  split
  · split
    · exact join_bounded _ _ _ h
    · intro q
      rw [queue_count]
      exact join_bounded _ _ _ h q
  · exact h

/-! ## Counters -/

/-- Conventions: counting keeps every counter within 65,535. -/
theorem countN_bounded (s : State) (c : Counter) (k : Nat) (h : s.countersBounded) : (s.countN c k).countersBounded := by
  intro d
  by_cases hd : d.index = c.index
  · have e : (s.countN c k).counter d = (s.countN c k).counter c := by simp [State.counter, hd]
    rw [e, State.counter_countN_self]
    omega
  · rw [State.counter_countN_ne s k hd]
    exact h d

/-! ## Reception -/

/-- R22, R25: what a port that can hear hears. -/
theorem hears_elapse {s : State} {p : PortId} (h : s.canHear p) (dt : Nat) : (s.elapse dt).hears p = true := by
  obtain ⟨-, hl, hr⟩ := h
  have hp : (s.elapse dt).port p = s.port p := by cases p <;> simp [State.port]
  simp [State.hears, hp, hl, hr]

/-- R27: a frame at its proper port is taken in the state of its arrival. -/
theorem receive_proper {s : State} {h : Hdr} {act : State → State} (hc : s.canHear h.port) (dt : Nat) :
    State.receive h.port h act (s.elapse dt) = act (s.arrived dt h) := by
  unfold State.receive State.sorted
  rw [hears_elapse hc dt]
  simp [State.arrived]

/-- R27: a frame at the wrong port is dropped and counted. -/
theorem receive_wrong {s : State} {h : Hdr} {proper : PortId} {act : State → State} (hc : s.canHear h.port)
    (hp : h.port ≠ proper) (dt : Nat) :
    State.receive proper h act (s.elapse dt) = (s.arrived dt h).count .wrongDirection := by
  unfold State.receive State.sorted
  rw [hears_elapse hc dt]
  simp [State.arrived, hp]

@[simp] theorem arrived_keeps (s : State) (dt : Nat) (h : Hdr) :
    (s.arrived dt h).held = s.held ∧ (s.arrived dt h).mainPower = s.mainPower ∧ (s.arrived dt h).zm = s.zm ∧
    (s.arrived dt h).bs = s.bs ∧ (s.arrived dt h).za = s.za ∧ (s.arrived dt h).pe = s.pe ∧
    (s.arrived dt h).cld = s.cld ∧ (s.arrived dt h).csv = s.csv ∧ (s.arrived dt h).fdc = s.fdc ∧
    (s.arrived dt h).mu = s.mu ∧ (s.arrived dt h).rs = s.rs ∧ (s.arrived dt h).image = s.image ∧
    (s.arrived dt h).pending = s.pending ∧
    (s.arrived dt h).now = s.now + dt := by
  simp [State.arrived]

/-- R32, R33: a request that is taken: its owner acts in the state of its arrival, and the copy, where there is one, goes to
DOWN normal. -/
theorem request_selected {s : State} {dt : Nat} {h : Hdr} {payload : List Byte} {owner : State → State}
    (hc : s.canHear .up) (hp : h.port = .up) (hm : (s.arrived dt h).selected h = true) :
    State.request h payload owner (s.elapse dt) =
      (if (s.arrived dt h).consumes h then owner (s.arrived dt h)
       else (owner (s.arrived dt h)).copyDown .downNormal (h.frame 0x08 payload) (s.arrived dt h).localCount .relayDown) := by
  have := receive_proper (s := s) (h := h) (act := State.matchRequest h payload owner) (by rw [hp]; exact hc) dt
  rw [hp] at this
  unfold State.request
  rw [this]
  simp [State.matchRequest, hm]

/-! ## Clock lines -/

/-- R135: the entry to a mode changes the mode and the correction record of its line and nothing else of the clock lines, the
store, the configuration or the circuits. -/
theorem enterMode_clock (s : State) (k : LineNo) (m : ClockMode) (d : Nat) :
    ∃ c, (s.enterMode k m d).clockLine k = { s.clockLine k with mode := m, correction := c } ∧
      (s.enterMode k m d).cld.cfg = s.cld.cfg ∧ (s.enterMode k m d).now = s.now ∧
      (s.enterMode k m d).rs = s.rs ∧ (s.enterMode k m d).csv = s.csv := by
  unfold State.enterMode
  dsimp only
  split <;> split <;> split <;> simp_all [State.clockLine, State.setClockLine]

/-- R122 to R126: what an evaluation of a line with no pulse in flight and of type MINUTE or HALF makes of it. -/
theorem evaluate_evaluated {s : State} {k : LineNo} (hp : (s.clockLine k).pulse = none) (ht : (s.clockCfg k).type ≠ .off) :
    s.evaluated (s.evaluate k) k s.tb.quality s.tb.ms s.now := by
  unfold State.evaluate
  rw [hp]
  simp only [Option.isSome_none, Bool.false_eq_true, if_false, ht]
  obtain ⟨c, h1, h2, h3, h4, h5⟩ := enterMode_clock s k (s.evalMode k).1 (s.evalMode k).2
  generalize s.enterMode k (s.evalMode k).1 (s.evalMode k).2 = u at *
  have hcfg : u.clockCfg k = s.clockCfg k := by simp [State.clockCfg, h2]
  have hsup : u.supCfg (circuitOfLine k) = s.supCfg (circuitOfLine k) := by simp [State.supCfg, h5]
  have hret : u.retained k = s.retained k := by simp [State.retained, h4]
  have hnp : u.nextPolarity k = (s.newPulse k s.now).polarity := by
    simp only [State.nextPolarity, hcfg, hret, State.newPulse]
    cases (s.clockCfg k).polarity <;> cases (s.retained k).polarity <;> rfl
  have hst : (u.startPulse k).clockLine k =
      { s.clockLine k with
        mode := (s.evalMode k).1, correction := c, gapEnd := none, pulse := some (s.newPulse k s.now) } := by
    simp only [State.startPulse, State.newPulse] at *
    simp [State.clockLine, hcfg, hsup, hnp, h3] at *
    simp [State.setClockLine, h1]
  have hw : ∀ g, ((u.setClockLine k { u.clockLine k with gapEnd := g }).clockLine k) =
      { s.clockLine k with mode := (s.evalMode k).1, correction := c, gapEnd := g } := by
    intro g
    simp [h1]
  unfold State.evaluated
  by_cases hq : s.tb.quality = .invalid
  · have hm : s.evalMode k = (.noTime, 0) := by simp [State.evalMode, hq]
    simp [hm, hq, hw, hp] at *
  cases hr : (s.retained k).position with
  | none =>
    have hm : s.evalMode k = (.unknownWait, 0) := by simp [State.evalMode, hq, hr]
    simp [hm, hq, hw, hp, hr] at *
  | some i =>
    by_cases hf : (s.circ (circuitOfLine k)).state = .fault
    · have hm : s.evalMode k = (.suspended, 0) := by simp [State.evalMode, hq, hr, hf]
      simp [hm, hq, hw, hp, hr, hf] at *
    · by_cases h0 : distance (s.clockCfg k).type s.tb.ms i = 0
      · have hm : s.evalMode k = (.inStep, 0) := by simp [State.evalMode, hq, hr, hf, h0]
        simp [hm, hq, hw, hp, hr, hf, h0] at *
      · by_cases hd : distance (s.clockCfg k).type s.tb.ms i < (s.clockCfg k).type.dial - (s.clockCfg k).window
        · have hm : s.evalMode k = (.advance, distance (s.clockCfg k).type s.tb.ms i) := by
            simp [State.evalMode, hq, hr, hf, h0, hd]
          have hd' := Nat.add_lt_of_lt_sub hd
          simp only [hm] at *
          simp only [State.pulseOrWait, h1, hcfg, h3]
          cases hg : (s.clockLine k).gapEnd with
          | some e =>
            by_cases he : s.now < e
            · simp only [if_true, he]; simp_all
            · simp only [if_true, he, if_false]; simp_all
          | none =>
            cases hl : (s.clockLine k).lastEnd with
            | none => simp_all
            | some l =>
              by_cases he : l + (s.clockCfg k).gap * 1000 ≤ s.now
              · simp only [if_true, he]; simp_all
              · simp only [if_true, he, if_false]; simp_all
        · have hm : (s.evalMode k).1 = .hold := by simp [State.evalMode, hq, hr, hf, h0, hd]
          simp_all

/-! ## The image -/

/-- R189: a space is good when every record of it passes its owner's checks. -/
theorem spaceGood_iff {α : Type} [DecidableEq α] {n : Nat} (dec : Nat → List Byte → Option α) (enc : α → List Byte)
    (v : Vector α n) : spaceGood dec enc v = true ↔ recordsPass dec enc v := by
  unfold spaceGood recordsPass
  simp only [List.all_eq_true, decide_eq_true_eq]
  constructor
  · intro h i
    exact h (v[i], i.val) (by rw [List.mem_zipIdx_iff_getElem?]; simp)
  · rintro h ⟨a, j⟩ hm
    rw [List.mem_zipIdx_iff_getElem?, Vector.getElem?_toList, Vector.getElem?_eq_some_iff] at hm
    obtain ⟨hj, hm⟩ := hm
    exact hm ▸ h ⟨j, hj⟩

end Sys2Proof.Machine
end

