-- ==== Sys2Proof/Tests/Slice0.lean ====
section
/-! SUPPORT. Tests of the model: the checks of WellFormed, the worked examples of the manual taken one command at a time,
and for every statement with hypotheses a state and operands that meet them. Expected values come from the manual's
examples and tables, or are worked out from its rules by hand. -/

set_option Elab.async false

namespace Sys2Proof.Tests

open Sys2Proof Sys2Proof.Machine

/-! ## Helpers -/

/-- What a function says of the next state, none where there is none. -/
def after {α : Type} (o : Host.Outcome State Fault Refusal) (f : State → α) : Option α :=
  match o with
  | .next t => some (f t)
  | .fault _ => none
  | .refused _ => none

/-- The refusal of an outcome. -/
def refusal (o : Host.Outcome State Fault Refusal) : Option Refusal :=
  match o with
  | .next _ => none
  | .fault _ => none
  | .refused r => some r

/-- An attached port with a frame under reception. -/
def hearing : Port := { Port.reset with link := .active, rx := some [] }

/-- A node of address 37 at hop position 4 whose two ports are ACTIVE and under reception. -/
def node : State :=
  { State.reset with
    line := { up := hearing, down := hearing, hop := some 4 },
    mu := { State.reset.mu with addr := 37, unassignedEnd := none } }

/-- A frame of the head-end's with selector mode ALL. -/
def toAll : Hdr := ⟨.up, 3, 0, 0, 9⟩

/-- A frame to the node of address 37. -/
def toNode : Hdr := ⟨.up, 3, 0x8025, 0, 9⟩

/-- A frame to the node of position 4. -/
def toPlace : Hdr := ⟨.up, 3, 0x4004, 0, 9⟩

/-- A frame received at DOWN. -/
def fromBelow : Hdr := ⟨.down, 2, 0, 0, 9⟩

/-- An output with these claims, no frame of a call counted CLIPPED on it. -/
def showing (claims : List Claim) (force : ForceState) (winner : Option Source) (play : Play) : OutputState :=
  ⟨claims, force, winner, play, Vector.replicate 8 false⟩

/-- A TIME payload (R195). -/
def timePayload (day ms delay epoch : Nat) : List Byte := enc16 day ++ enc32 ms ++ enc32 delay ++ enc8 epoch

/-- The node with a campus time of a quality. -/
def nodeAt (q : Quality) (day : Word16) (ms us : Nat) : State :=
  { node with tb := { State.reset.tb with quality := q, day := day, ms := ms, phase := us, epoch := some 17 } }

/-! ## WellFormed: each check refuses a term -/

theorem test_illFormed_long_payload : (Instr.select 0 toAll (List.replicate 241 0)).wellFormed = false := by
  decide +kernel

theorem test_wellFormed_longest_payload : (Instr.select 0 toAll (List.replicate 240 0)).wellFormed = true := by
  decide +kernel

theorem test_illFormed_drill_payload : (Instr.drillStart 0 toAll (List.replicate 240 0)).wellFormed = false := by
  decide +kernel

theorem test_illFormed_known_kind : (Instr.unknownKind 0 toAll 0x05 []).wellFormed = false := by decide

/-- A BELL_NOW frame without payload, with its CRC, passes both checks of R26. -/
theorem test_illFormed_good_frame :
    (Instr.frameCheckFailed 0 .up ([5, 0, 0, 0, 0, 0, 0, 0] ++ enc16 (crc [5, 0, 0, 0, 0, 0, 0, 0]).toNat)).wellFormed
      = false := by decide +kernel

theorem test_illFormed_overlong_frame : (Instr.frameCheckFailed 0 .up (List.replicate 251 0)).wellFormed = false := by
  decide +kernel

theorem test_illFormed_drill_command : (Instr.drillBadCommand 0 toAll [3]).wellFormed = false := by decide

theorem test_illFormed_known_request : (Instr.unknownRequest 0 toAll [8, 5]).wellFormed = false := by decide

theorem test_illFormed_writable_space : (Instr.writeTableBadSpace 0 toAll 10 0 1 []).wellFormed = false := by decide

theorem test_illFormed_long_records : (Instr.writeTones 0 toAll 0 1 (List.replicate 236 0)).wellFormed = false := by
  decide +kernel

theorem test_illFormed_is_refused : refusal (exec (.unknownKind 0 toAll 0x05 []) node) = some .illFormed := by
  decide +kernel

/-! ## Reset and the queue -/

/-- R191, R189, R190: a full reset of a part never written whose store is lost gives State.reset. -/
theorem test_fullReset_is_reset :
    after (exec (.fullReset 0 ⟨false, true⟩ 0) { State.reset with rs := { State.reset.rs with checkOk := false } })
      (fun t => decide (t = State.reset)) = some true := by decide +kernel

theorem test_step_takes_front :
    after (step (node.withPending [.lineSignalLost 5 .down, .localTick false])) (fun t => (t.now, t.pending))
      = some (5, [.localTick false]) := by decide +kernel

theorem test_step_idles : after (step node) (fun t => decide (t = node)) = some true := by decide +kernel

/-- R191: nothing acts while the node is held; the resets do. -/
theorem test_held_ping : after (exec (.ping 7 toAll) { node with held := true }) (fun t => (t.now, t.line.up.normal.length))
    = some (7, 0) := by decide +kernel

/-! ## The line -/

theorem test_lineSignalPresent : after (exec (.lineSignalPresent 40 .up) State.reset)
    (fun t => (t.line.up.link, t.line.up.debounceEnd)) = some (.debounce, some 60040) := by decide +kernel

theorem test_debounceTimerExpiry : after (exec (.debounceTimerExpiry 60000 .down)
      { node with line := { node.line with down := { Port.reset with link := .debounce, debounceEnd := some 60000 } } })
    (fun t => (t.line.down.link, t.line.down.trainingEnd)) = some (.training, some 360000) := by decide +kernel

/-- The training port of the next tests. -/
def training : State :=
  { node with line := { node.line with up := { Port.reset with link := .training, trainingEnd := some 300000 } } }

theorem test_trainingCodeGroup : after (exec (.trainingCodeGroup 1000 .up) training) (fun t => t.line.up.trainingEnd)
    = some (some 301000) := by decide +kernel

/-- R23, R15: UP_ATTACHED, and the first ECHO_REQ with tag 1. -/
theorem test_trainingTimerExpiry : after (exec (.trainingTimerExpiry 300000 .up) training)
    (fun t => (t.line.up.link, t.line.up.express.map (fun i => (i.frame.kind, i.frame.tag)),
      t.line.up.normal.map (fun i => i.frame.payload.take 2)))
    = some (.active, [(0x81, 1)], [[1, 1]]) := by decide +kernel

theorem test_training_runs_on : after (exec (.trainingTimerExpiry 299999 .up) training) (fun t => t.line.up.link)
    = some .training := by decide +kernel

theorem test_lineSignalLostInAttach : after (exec (.lineSignalLostInAttach 0 .up) training)
    (fun t => (t.line.up.link, t.line.up.trainingEnd)) = some (.absent, none) := by decide +kernel

/-- R24: LINE_END carries the number of frames flushed, and the frame under reception is counted. -/
theorem test_lineSignalLost : after (exec (.lineSignalLost 0 .down)
      { node with line := { node.line with down := { hearing with
          normal := [⟨toAll.frame 5 [], some 0, .relayDown⟩, ⟨toAll.frame 6 [], some 0, .relayDown⟩] } } })
    (fun t => ([t.line.down.normal.length, t.counter .downFlushed, t.counter .downLoss, t.counter .downAborted],
      t.line.up.normal.map (fun i => i.frame.payload.take 2 ++ i.frame.payload.drop 10)))
    = some ([0, 2, 1, 1], [[1, 3, 2, 0, 2]]) := by decide +kernel

theorem test_codeViolation : after (exec (.codeViolationInFrame 0 .down) node)
    (fun t => (t.line.down.rx, t.counter .downAborted)) = some (none, 1) := by decide +kernel

theorem test_frameOverlength : after (exec (.frameOverlength 0 .up) node)
    (fun t => (t.line.up.rx, t.counter .upLengthError)) = some (none, 1) := by decide +kernel

theorem test_frameCheckFailed_short : after (exec (.frameCheckFailed 0 .up [1, 2, 3]) node)
    (fun t => (t.counter .upLengthError, t.counter .upCrcError)) = some (1, 0) := by decide +kernel

theorem test_frameCheckFailed_crc : after (exec (.frameCheckFailed 0 .up [5, 0, 0, 0, 0, 0, 0, 0, 0, 0]) node)
    (fun t => (t.counter .upLengthError, t.counter .upCrcError)) = some (0, 1) := by decide +kernel

theorem test_frameStartDelimiter : after (exec (.frameStartDelimiter 0 .up) { node with line := Line.reset })
    (fun t => t.line.up.rx) = some none := by decide +kernel

/-- "Example: selector matching": the matches of a node of an address and a position, by row. -/
def matchesOf (addr : Word16) (pos : Byte) : List Bool :=
  [(0, 0), (0x4005, 0), (0x4006, 0), (0x8025, 0), (0x8020, 0x1F), (0x8028, 7), (0x8000, 0x3FF), (0x8000, 0)].map
    (fun p : Word16 × Word16 =>
      { node with line := { node.line with hop := some pos }, mu := { node.mu with addr := addr } }.selected
        ⟨.up, 3, p.1, p.2, 0⟩)

theorem test_selectors_X : matchesOf 37 4 = [true, false, false, true, true, false, true, false] := by decide +kernel

theorem test_selectors_Y : matchesOf 40 5 = [true, true, false, false, true, true, true, false] := by decide +kernel

theorem test_selectors_Z : matchesOf 0 6 = [false, false, true, false, false, false, true, false] := by decide +kernel

/-- "Example: requests along three buildings", N1: forwarded with Hops 1, no reply. -/
theorem test_ping_forwarded : after (exec (.ping 0 ⟨.up, 0, 0x8007, 0, 51⟩)
      { node with line := { node.line with hop := some 1 }, mu := { node.mu with addr := 12 } })
    (fun t => (t.line.up.normal.length, t.line.down.normal.map (fun i => (t.written i).hops))) = some (0, [1]) := by
  decide +kernel

/-- The same example, N2: consumed, replied with Tag 51. -/
theorem test_ping_consumed : after (exec (.ping 0 ⟨.up, 1, 0x8007, 0, 51⟩)
      { node with line := { node.line with hop := some 2 }, mu := { node.mu with addr := 7 } })
    (fun t => (t.line.up.normal.map (fun i => (i.frame.kind, i.frame.tag, (t.written i).hops)), t.line.down.normal.length))
      = some ([(0x41, 51, 2)], 0) := by decide +kernel

theorem test_mgmtRpl : after (exec (.mgmtRpl 3 fromBelow [1, 0]) node)
    (fun t => t.line.up.normal.map (fun i => (i.frame.kind, (t.written i).hops, i.stamp)))
    = some [(0x41, 2, some 3)] := by decide +kernel

theorem test_notice_no_port : after (exec (.notice 0 fromBelow [])
      { node with line := { node.line with up := Port.reset } }) (fun t => (t.line.up.normal.length, t.counter .upNoPort))
    = some (0, 1) := by decide +kernel

/-- R36: the turnaround is the local count at the start less the stamp. -/
theorem test_echoReq : after (exec (.echoReq 100 fromBelow (List.replicate 11 0)) node)
    (fun t => t.line.down.express.map (fun i => ((t.elapse 95).written i).payload.take 4)) = some [[0, 0, 0, 95]] := by
  decide +kernel

theorem test_unknownKind : after (exec (.unknownKind 0 ⟨.up, 254, 0, 0, 0⟩ 0x77 [9]) node)
    (fun t => (t.line.hop, t.counter .unknownKind, t.line.down.normal.map (fun i => (t.written i).hops)))
    = some (some 255, 1, [255]) := by decide +kernel

/-- "Example: the DOWN arbiter under load": an AUDIO frame waits behind a TIME frame. -/
theorem test_transmitStart : after (exec (.transmitStart 0 .down)
      { node with
        now := 94,
        line := { node.line with down := { hearing with
          express := [⟨toAll.frame 1 (timePayload 0 0 1840 17), some 24, .relayTime 612⟩, ⟨toAll.frame 2 [], some 35, .relayDown⟩],
          normal := [⟨toAll.frame 6 [], some 10, .relayDown⟩] } } })
    (fun t => (t.line.down.tx.map (fun x => (x.frame.kind, x.frame.hops, word32At x.frame.payload 6, x.ends)),
      t.line.down.express.length, t.line.down.normal.length))
    = some (some (1, 4, 2522, 140), 1, 1) := by decide +kernel

/-- R38: at least one byte time of idle pattern follows a frame. -/
theorem test_transmitStart_idle : after (exec (.transmitStart 1 .down)
      { node with line := { node.line with down := { hearing with
          express := [⟨toAll.frame 2 [], some 0, .relayDown⟩], lastTxEnd := some 0 } } })
    (fun t => t.line.down.tx) = some none := by decide +kernel

theorem test_frameTransmitEnd : after (exec (.frameTransmitEnd 44 .down)
      { node with line := { node.line with down := { hearing with tx := some ⟨toAll.frame 1 [], 0, 0, 44, .relayDown⟩ } } })
    (fun t => (t.line.down.tx, t.line.down.lastTxEnd)) = some (none, some 44) := by decide +kernel

/-! ## Campus time -/

/-- "Worked example: a slew at 08:07:30". -/
def slewing : State :=
  { node with tb := { State.reset.tb with
      day := 400, ms := 29249998, phase := 100, slewCount := 17, quality := .synced, epoch := some 17, linkDelay := 612 } }

theorem test_time_slew : after (exec (.time 0 toAll (timePayload 400 29250000 1840 17) 0 false) slewing)
    (fun t => (t.tb.slew, t.tb.ms, t.tb.timeoutEnd, t.counter .timeSteps)) = some (4, 29249998, some 5000000, 0) := by
  decide +kernel

/-- "Worked example: a step at the autumn change", with a lag of 0. -/
theorem test_time_step : after (exec (.time 0 toAll (timePayload 200 3600000 1000 18) 0 false)
      { nodeAt .synced 200 7200000 0 with tb := { (nodeAt .synced 200 7200000 0).tb with linkDelay := 500 } })
    (fun t => (t.tb.ms, t.tb.us, t.tb.epoch, t.rs.second, t.counter .timeSteps)) = some (3600001, 500, some 18, 3600, 1) := by
  decide +kernel

/-- The 33rd tick of the slew example: the slew counter stands at 49 before it. -/
theorem test_localTick_slews : after (exec (.localTick false)
      { slewing with tb := { slewing.tb with ms := 29250030, slew := 4, slewCount := 49 } })
    (fun t => (t.tb.slew, t.tb.ms, t.tb.slewCount)) = some (3, 29250032, 0) := by decide +kernel

/-- R1: in INVALID the ticks fall on every 1,000 µs of the oscillator, whatever commands come between. -/
theorem test_localTick_invalid : after (exec (.localTick false) (node.elapse 400))
    (fun t => (t.now, t.tb.slewCount, t.tb.us)) = some (1000, 1, 0) := by decide +kernel

/-- R12: over a lag of 2,950 µs three local milliseconds end, and the slew counter runs on from 17 to 20. -/
theorem test_time_step_lag : after (exec (.time 0 toAll (timePayload 400 29250000 1840 18) 2950 false) slewing)
    (fun t => (t.now, t.tb.slewCount, t.tb.ms, t.tb.us)) = some (2950, 20, 29250005, 402) := by decide +kernel

theorem test_localTick_midnight : after (exec (.localTick false) (nodeAt .synced 65535 86399999 0))
    (fun t => (t.tb.day, t.tb.ms, t.rs.second, t.bs.plan, t.bs.hwm)) = some (0, 0, 0, some .noBells, some 0) := by
  decide +kernel

theorem test_timeTimeoutExpiry : after (exec (.timeTimeoutExpiry 5000000)
      { nodeAt .synced 1 0 0 with tb := { (nodeAt .synced 1 0 0).tb with timeoutEnd := some 5000000 } })
    (fun t => (t.tb.quality, t.line.up.normal.map (fun i => i.frame.payload.take 2))) = some (.holdover, [[2, 1]]) := by
  decide +kernel

theorem test_echoPeriodExpiry : after (exec (.echoPeriodExpiry 5) { node with tb := { node.tb with echoPeriod := some 5 } })
    (fun t => (t.tb.echo, t.tb.echoTag, t.tb.echoPeriod, t.line.up.express.length)) = some (.queued, 1, some 16000005, 1) := by
  decide +kernel

/-- "Worked example: the link delay filter". -/
def awaiting (linkDelay : Nat) (taken : Bool) : State :=
  { node with
    now := 1001340,
    tb := { State.reset.tb with
      echo := .awaiting 1000000 1100000, echoTag := 36, linkDelay := linkDelay, sampleTaken := taken } }

theorem test_echoRpl_filter :
    [(500, false), (600, true), (605, true)].map (fun p =>
      after (exec (.echoRpl 0 { toAll with tag := 36 } (enc32 120 ++ List.replicate 7 0)) (awaiting p.1 p.2))
        (fun t => t.tb.linkDelay)) = [some 610, some 601, some 605] := by decide +kernel

theorem test_echoRpl_invalid :
    after (exec (.echoRpl 0 { toAll with tag := 36 } (enc32 1400 ++ List.replicate 7 0)) (awaiting 600 true))
      (fun t => (t.tb.linkDelay, t.tb.echo, t.counter .echoInvalid)) = some (600, .idle, 1) := by decide +kernel

theorem test_echoReplyTimeout : after (exec (.echoReplyTimeout 98660) (awaiting 600 true))
    (fun t => (t.tb.echo, t.counter .echoTimeout)) = some (.idle, 1) := by decide +kernel

theorem test_backupCounterSecond : after (exec (.backupCounterSecond 0)
      { node with rs := { node.rs with timeWritten := true, day := 65535, second := 86399 } })
    (fun t => (t.rs.day, t.rs.second)) = some (0, 0) := by decide +kernel

/-! ## Groups and bells -/

/-- "Worked example: a two-step selection". -/
def firstFloor : State :=
  { node with zm := { node.zm with
      attrs := ((((node.zm.attrs.set 0 { ZoneAttr.factory 0 with wing := 1 }).set 1
          { ZoneAttr.factory 0 with wing := 1, floor := 1 }).set 2 { ZoneAttr.factory 0 with wing := 2, floor := 1 }).set 16
          { ZoneAttr.factory 16 with wing := 1, floor := 1, bellOnSpeaker := true }),
      sel := (node.zm.sel.set 0 true).set 2 true } }

theorem test_select : after (exec (.select 0 toAll (enc16 2 ++ [2, 0, 1, 1, 1, 2, 2, 1, 1, 1, 0, 2])) firstFloor)
    (fun t => allOutputs.filter (fun o => t.zm.sel[o])) = some [1, 16] := by decide +kernel

theorem test_select_bad : after (exec (.select 0 toAll (enc16 2 ++ [2, 0, 1, 1, 1, 2])) firstFloor)
    (fun t => (allOutputs.filter (fun o => t.zm.sel[o]), t.counter .selectBad)) = some ([0, 2], 1) := by decide +kernel

/-- R50, R57: a zone past the end of both kinds of output is dropped once. -/
theorem test_dropped_once :
    ({ node.zm with windows := (node.zm.windows.set 0 ⟨true, .bell, 0, 9, 15⟩).set 1 ⟨true, .speaker, 0, 9, 7⟩ }.resolveBell
      ⟨0, 0, 1⟩ false) = ⟨[15], 1⟩ := by decide +kernel

/-- R75: a duration of 0 is clamped to 1 s. -/
theorem test_bellNow : after (exec (.bellNow 0 toAll (encTarget ⟨2, 0, 0⟩ ++ [3, 0, 0] ++ List.replicate 10 0)) node)
    (fun t => ((t.out 9).claims.map (fun c => (c.cls, c.ends)), t.relayClosed 9, t.counter .bellNowClamped, (t.out 16).claims))
    = some ([(5, some 1000000)], true, 1, []) := by decide +kernel

/-- A bank whose entry 8 stands below its entry 3. -/
def unordered : Schedule :=
  (emptyBank.set 3 ⟨500, 1, .bell, 0, 0, ⟨2, 0, 0⟩, 1⟩).set 8 ⟨499, 1, .bell, 0, 0, ⟨2, 0, 0⟩, 1⟩

theorem test_activateBank_order : after (exec (.activateBank 0 toNode)
      { node with bs := { node.bs with bankB := unordered } })
    (fun t => (t.bs.pendingSwap, t.line.up.normal.map (fun i => i.frame.payload))) = some (false, [[5, 6, 0, 8]]) := by
  decide +kernel

theorem test_writeSched_active : after (exec (.writeSched 0 toNode .a 0 1 (List.replicate 14 0)) node)
    (fun t => t.line.up.normal.map (fun i => i.frame.payload)) = some [[4, 4]] := by decide +kernel

/-! ## Claims, tones and pages -/

theorem test_bellClaimExpiry : after (exec (.bellClaimExpiry 1000 9)
      (node.setOut 9 (showing [⟨.force, 2, .continuous, none⟩, ⟨.bell, 5, .continuous, some 1000⟩] .on (some .force)
        .continuous)))
    (fun t => ((t.out 9).claims.map (·.source), t.relayClosed 9)) = some ([.force], true) := by decide +kernel

/-- R94: the OFF phase of step 1 ends and step 2 begins. -/
theorem test_tonePhaseEnd : after (exec (.tonePhaseEnd 500000 (.output 9))
      (node.setOut 9 (showing [⟨.bell, 5, .tone ⟨true, [⟨50, 50, 10⟩, ⟨50, 150, 10⟩]⟩, some 9000000⟩] .none (some .bell)
        (.tone ⟨0, false, 0⟩ 128))))
    (fun t => (t.out 9).play) = some (.tone ⟨1, true, 500000⟩ 0) := by decide +kernel

/-- R91, R92. -/
theorem test_forceOn : after (exec (.forceOn 0 toNode 9)
      { node with mu := { node.mu with node := { NodeCfg.factory with allowForceOn := true } } })
    (fun t => (t.relayClosed 9, t.line.up.normal.map (fun i => i.frame.payload))) = some (true, [[9, 0]]) := by decide +kernel

theorem test_forceOn_denied : after (exec (.forceOn 0 toNode 9) node)
    (fun t => (t.relayClosed 9, t.line.up.normal.map (fun i => i.frame.payload), t.counter .mgmtRefused))
    = some (false, [[9, 8]], 1) := by decide +kernel

/-- A call in a record, and a node that holds it alone. -/
def calling (st : CallState) (expected : Option Byte) (fifo : List AudioFrame) : State :=
  node.setCall 0 (some ⟨3, 2, [16, 17], none, 128, st, expected, fifo, none, 0, some 2000000, 0, none, none⟩)

/-- An AUDIO payload of 40 samples of 0. -/
def audioPayload (channel seq : Byte) : List Byte := [channel, seq, 40] ++ List.replicate 80 0

theorem test_pageOpen : after (exec (.pageOpen 0 toAll ([3, 2, 0xFF, 128] ++ encTarget ⟨2, 0, 0⟩ ++ List.replicate 9 0)) node)
    (fun t => ((t.call 0).map (fun c => (c.state, c.zones.length)), (t.out 16).winner, (t.out 0).winner))
    = some (some (.prefill, 8), some (.page 0), none) := by decide +kernel

theorem test_pageClose : after (exec (.pageClose 0 toAll (3 :: List.replicate 17 0)) (calling .play (some 5) [.silence]))
    (fun t => (t.call 0).map (fun c => (c.state, c.silenceEnd))) = some (some (.drain, none)) := by decide +kernel

/-- "Worked example: a page with gaps and a preemption": 13 after 11 conceals 12 and starts PLAY. -/
theorem test_audio_conceals : after (exec (.audio 0 toAll (audioPayload 3 13))
      (calling .prefill (some 12) [.samples [10], .samples [11]]))
    (fun t => ((t.call 0).map (fun c => (c.state, c.expected, c.fifo.length)), t.counter .concealed))
    = some (some (.play, some 14, 4), 1) := by decide +kernel

theorem test_audio_late : after (exec (.audio 0 toAll (audioPayload 3 12)) (calling .play (some 15) []))
    (fun t => ((t.call 0).map (fun c => (c.expected, c.fifo.length)), t.counter .late)) = some (some (some 15, 0), 1) := by
  decide +kernel

theorem test_chimeEnd : after (exec (.chimeEnd 1100000 0)
      (node.setCall 0 (some ⟨3, 0, [16], some .factory, 128, .chime, none, [], none, 0, none, 0, some 1100000, none⟩)))
    (fun t => (t.call 0).map (fun c => (c.state, c.silenceEnd))) = some (some (.prefill, some 3100000)) := by decide +kernel

theorem test_frameClockTick : after (exec (.frameClockTick 5000) (calling .play (some 5) []))
    (fun t => ((t.call 0).map (·.underruns), t.counter .underrun, t.pe.nextTick)) = some (some 1, 1, 10000) := by
  decide +kernel

theorem test_silenceTimerExpiry : after (exec (.silenceTimerExpiry 2000000 0) (calling .prefill none []))
    (fun t => (t.call 0, t.counter .timeout)) = some (none, 1) := by decide +kernel

/-! ## Clock lines and supervision -/

/-- "Worked example: a RESYNC during a pulse, then a short": K2 with a pulse begun at 0. -/
def pulsing (r : CheckResult) : State :=
  { node with
    tb := (nodeAt .synced 400 18600000 0).tb,
    cld := { cfg := node.cld.cfg.set 2 ⟨.minute, .polarized, 600, 400, 0, 20, 230⟩,
             lines := node.cld.lines.set 2
              ⟨.advance, some ⟨.a, 0, 600000, 300000, r, 20, 230⟩, none, none, none, some 0⟩ },
    rs := { node.rs with lines := node.rs.lines.set 2 ⟨some 300, .b, true, some .minute⟩ },
    csv := { node.csv with cfg := node.csv.cfg.set 18 { SupCfg.factory with enabled := true } } }

theorem test_pulseMidCheck_good : after (exec (.pulseMidCheck 300000 2 140) (pulsing .pending))
    (fun t => (t.clockLine 2).pulse.map (·.result)) = some (some .good) := by decide +kernel

theorem test_pulseMidCheck_short : after (exec (.pulseMidCheck 300000 2 247) (pulsing .pending))
    (fun t => ((t.clockLine 2).pulse, (t.clockLine 2).mode, (t.retained 2).position, (t.circ 18).state, t.counter .pulseShort))
    = some (none, .suspended, some 300, .fault, 1) := by decide +kernel

/-- The pulse's end with a resync to 305, KEEP, pending. -/
theorem test_pulseEnd_pending : after (exec (.pulseEnd 600000 2)
      ((pulsing .good).setClockLine 2 { (pulsing .good).clockLine 2 with pending := some (.position 305 none) }))
    (fun t => ((t.retained 2).position, (t.retained 2).polarity, (t.clockLine 2).mode, (t.clockLine 2).gapEnd))
    = some (some 305, .a, .advance, some 1000000) := by decide +kernel

theorem test_gapWaitEnd : after (exec (.gapWaitEnd 400000 2)
      ((pulsing .good).setClockLine 2 ⟨.advance, none, none, some 400000, some 0, some 0⟩))
    (fun t => (t.clockLine 2).pulse.map (fun p => (p.polarity, p.due, p.result))) = some (some (.a, 1000000, .pending)) := by
  decide +kernel

theorem test_resyncClock_pending : after (exec (.resyncClock 0 toNode 2 305 2) (pulsing .good))
    (fun t => ((t.clockLine 2).pending, (t.retained 2).position)) = some (some (.position 305 none), some 300) := by
  decide +kernel

/-- "Worked example: a broken bell wire and its repair": B5 with h 10 and both automatic flags. -/
def scanning (count : Nat) : State :=
  { node with csv :=
      { cfg := node.csv.cfg.set 5 { SupCfg.factory with enabled := true, h := 10, autoRecover := true, autoIsolate := true },
        records := node.csv.records.set 5 { CircRecord.fresh with state := .alert, count := count },
        scan := .dwell 5 0 50000 } }

theorem test_dwellEnd_fault : after (exec (.dwellEnd 50000 255) (scanning 2)) (fun t => t.circ 5)
    = some ⟨.fault, 0, some .openLine, true, false, some 255⟩ := by decide +kernel

theorem test_dwellEnd_alert : after (exec (.dwellEnd 50000 255) (scanning 1))
    (fun t => ((t.circ 5).state, (t.circ 5).count)) = some (.alert, 2) := by decide +kernel

theorem test_recoverCircuit_state : after (exec (.recoverCircuit 0 toNode 5)
      ((scanning 0).setCirc 5 ⟨.fault, 0, some .openLine, true, false, some 255⟩))
    (fun t => t.line.up.normal.map (fun i => i.frame.payload)) = some [[8, 9]] := by decide +kernel

/-! ## Fire and drills -/

/-- "Worked example: one drill in two buildings", the program 2 and the evacuation set B9 and S4. -/
def drilling (phase : DrillPhase) (deadline : Option Nat) : State :=
  { nodeAt .synced 410 37799000 0 with
    zm := { node.zm with
      attrs := (node.zm.attrs.set 9 { ZoneAttr.factory 9 with evac := true }).set 20 { ZoneAttr.factory 20 with evac := true } },
    fdc := { node.fdc with
      programs := node.fdc.programs.set 2 ⟨3, 30, 7, 180, 300, 0x0F, 4, 12⟩,
      drill := some ⟨phase, 500, 2, ⟨3, 30, 7, 180, 300, 0x0F, 4, 12⟩, 410, 37800000, deadline, 0, 0, false, none⟩,
      roll := if phase.recorded then
        some ⟨.drill, 500, some 2, 0x0F, some (410, 37830000), true, 3, 0, Vector.replicate 8 none, 0, .none⟩ else none } }

theorem test_drillStart_armed : after (exec (.drillStart 0 toAll (enc16 500 ++ [2] ++ enc16 410 ++ enc32 37800000 ++ List.replicate 8 0))
      { drilling .armed none with fdc := { (drilling .armed none).fdc with drill := none } })
    (fun t => (drillCode t.fdc.drill, t.drillMute)) = some (1, false) := by decide +kernel

theorem test_drillAbort : after (exec (.drillAbort 0 toAll (enc16 500 ++ List.replicate 15 0)) (drilling .armed none))
    (fun t => (drillCode t.fdc.drill, t.line.up.normal.map (fun i => i.frame.payload.drop 10)))
    = some (0, [[6, 1, 0xF4, 3, 1, 0, 0xFF]]) := by decide +kernel

theorem test_drillAllClear : after (exec (.drillAllClear 0 toAll (enc16 500 ++ List.replicate 15 0)) (drilling .hold (some 9)))
    (fun t => (drillCode t.fdc.drill, t.fdc.roll.map (fun r => (r.isOpen, r.missing)))) = some (5, some (false, 4)) := by
  decide +kernel

theorem test_drillBadCommand : after (exec (.drillBadCommand 0 toAll []) node) (fun t => t.counter .drillBad) = some 1 := by
  decide +kernel

theorem test_preAlertEnd : after (exec (.preAlertEnd 30000000) (drilling .preAlert (some 30000000)))
    (fun t => (drillCode t.fdc.drill, (t.out 9).claims.map (·.cls), (t.out 8).claims, t.fdc.roll.map (·.isOpen)))
    = some (3, [0], [], some true) := by decide +kernel

theorem test_evacuateEnd : after (exec (.evacuateEnd 180000000) (drilling .evacuate (some 180000000)))
    (fun t => (drillCode t.fdc.drill, (t.fdc.drill.bind (·.deadline)))) = some (4, some 480000000) := by decide +kernel

theorem test_holdLimitExpiry : after (exec (.holdLimitExpiry 300000000) (drilling .hold (some 300000000)))
    (fun t => (drillCode t.fdc.drill, (t.out 20).claims.map (·.cls), t.drillMute)) = some (5, [1], false) := by decide +kernel

theorem test_allClearPhaseEnd : after (exec (.allClearPhaseEnd 12000000) (drilling .allClear (some 12000000)))
    (fun t => (drillCode t.fdc.drill, t.fdc.roll.map (·.outcome))) = some (0, some .complete) := by decide +kernel

theorem test_drillProgress : after (exec (.drillProgress 10000000) (drilling .evacuate (some 180000000)))
    (fun t => t.line.up.normal.map (fun i => i.frame.payload.drop 10)) = some [[6, 1, 0xF4, 3, 0, 10, 0]] := by decide +kernel

theorem test_holdKeyPress : after (exec (.holdKeyPress 60000) (drilling .evacuate (some 180000000)))
    (fun t => (drillCode t.fdc.drill, t.fdc.roll.map (·.outcome))) = some (0, some .abortedLocal) := by decide +kernel

theorem test_sweepPress : after (exec (.sweepPress 72600000 1) (drilling .evacuate (some 180000000)))
    (fun t => t.fdc.roll.map (fun r => r.clear[1])) = some (some (some 72)) := by decide +kernel

/-- "Worked example: a drill overtaken by a fire": the third active reading. -/
theorem test_fireCheck_active : after (exec (.fireCheck 100000 200)
      { drilling .evacuate (some 180000000) with
        fdc := { (drilling .evacuate (some 180000000)).fdc with fire := .pending, count := 2 } })
    (fun t => (t.fdc.fire, drillCode t.fdc.drill, (t.out 9).claims.map (·.cls), t.fdc.roll.map (·.kind)))
    = some (.active, 0, [0], some .fire) := by decide +kernel

theorem test_fireCheck_trouble : after (exec (.fireCheck 100000 120)
      { node with fdc := { node.fdc with fire := .pending, count := 2, troubleRun := 9 } })
    (fun t => (t.fdc.fire, t.fdc.count, t.fdc.trouble, t.counter .fireTrouble)) = some (.pending, 2, true, 1) := by
  decide +kernel

/-! ## Management -/

theorem test_ping : after (exec (.ping 0 toPlace) (drilling .armed none))
    (fun t => t.line.up.normal.map (fun i => i.frame.payload)) = some [[1, 0, 0x2A, 3, 0, 37, 4, 2, 0, 1, 1, 0xF4]] := by
  decide +kernel

theorem test_readStatus : after (exec (.readStatus 0 toPlace) (drilling .armed none))
    (fun t => t.line.up.normal.map (fun i => (i.frame.payload.length, i.frame.payload.take 6)))
    = some [(79, [6, 0, 0, 37, 4, 0x33])] := by decide +kernel

theorem test_setAddr : after (exec (.setAddr 0 toPlace 12) { node with mu := State.reset.mu })
    (fun t => (t.mu.addr, t.mu.unassignedEnd, t.line.up.normal.map (fun i => i.frame.payload.take 4)))
    = some (12, none, [[2, 0, 0, 12], [9, 2, 0, 12]]) := by decide +kernel

theorem test_setAddr_not_by_place : after (exec (.setAddr 0 toNode 12) node)
    (fun t => (t.mu.addr, t.line.up.normal.map (fun i => i.frame.payload))) = some (37, [[2, 9]]) := by decide +kernel

/-- R196: the factory CLOCKCFG record. -/
theorem test_readTable : after (exec (.readTable 0 toNode 7 7 3 0) node)
    (fun t => t.line.up.normal.map (fun i => i.frame.payload))
    = some [[3, 0, 7, 0, 7, 1, 0, 0, 1, 0xF4, 1, 0xF4, 0, 20, 230]] := by decide +kernel

theorem test_writeCalendar : after (exec (.writeCalendar 0 toNode 0 1 [1, 1, 146, 3]) (nodeAt .synced 402 0 0))
    (fun t => (t.bs.plan, t.line.up.normal.map (fun i => i.frame.payload.take 2)))
    = some (some (.day 3), [[4, 0], [3, 1]]) := by decide +kernel

theorem test_writeWeekplan : after (exec (.writeWeekplan 0 toNode 3 1 [2]) (nodeAt .synced 402 0 0))
    (fun t => t.bs.plan) = some (some (.day 2)) := by decide +kernel

theorem test_writeWindows_bad : after (exec (.writeWindows 0 toNode 0 1 [1, 1, 0, 5, 0, 4, 0]) node)
    (fun t => t.line.up.normal.map (fun i => i.frame.payload)) = some [[4, 3, 0, 0]] := by decide +kernel

theorem test_writeZoneattr : after (exec (.writeZoneattr 0 toNode 16 1 [1, 2, 3, 4, 7, 128, 255]) node) (fun t => t.attr 16)
    = some ⟨1, 2, 3, 4, true, true, true, 128, 255⟩ := by decide +kernel

theorem test_writeTones : after (exec (.writeTones 0 toNode 2 1 (padTo 42 ([1, 1] ++ enc16 100 ++ enc16 50 ++ [5]))) node)
    (fun t => t.za.tones[2]) = some ⟨true, [⟨100, 50, 5⟩]⟩ := by decide +kernel

/-- R132: a type change with no pulse in flight makes the position UNKNOWN. -/
theorem test_writeClockcfg : after (exec (.writeClockcfg 0 toNode 2 1 (encClock ⟨.half, .same, 500, 500, 0, 20, 230⟩))
      ((pulsing .good).setClockLine 2 (ClockLine.reset .minute)))
    (fun t => ((t.retained 2).position, (t.retained 2).type, (t.clockLine 2).mode)) = some (none, some .half, .unknownWait) := by
  decide +kernel

theorem test_writeSupcfg_disables : after (exec (.writeSupcfg 0 toNode 5 1 (encSup SupCfg.factory))
      ((scanning 0).setCirc 5 ⟨.fault, 0, some .openLine, true, false, some 255⟩))
    (fun t => (t.circ 5, t.csv.scan, t.counter .circRecoveries)) = some (.fresh, .idle, 1) := by decide +kernel

theorem test_writeDrillprog : after (exec (.writeDrillprog 0 toNode 3 1 [3, 0, 30, 7, 0, 180, 1, 44, 15, 4, 12]) node)
    (fun t => t.fdc.programs[3]) = some ⟨3, 30, 7, 180, 300, 15, 4, 12⟩ := by decide +kernel

theorem test_writeNodecfg : after (exec (.writeNodecfg 0 toNode 0 1 (encNode { NodeCfg.factory with linkDelay := 700 })) node)
    (fun t => (t.mu.node.linkDelay, t.tb.linkDelay)) = some (700, 700) := by decide +kernel

theorem test_writeTableBadSpace : after (exec (.writeTableBadSpace 0 toNode 11 0 1 [0, 0]) node)
    (fun t => t.line.up.normal.map (fun i => i.frame.payload)) = some [[4, 1]] := by decide +kernel

theorem test_unknownRequest : after (exec (.unknownRequest 0 toNode [8]) node)
    (fun t => t.line.up.normal.map (fun i => i.frame.payload)) = some [[8, 2]] := by decide +kernel

theorem test_forceOff : after (exec (.forceOff 0 toNode 9)
      ({ node with mu := { node.mu with node := { NodeCfg.factory with allowForceOff := true } } }.setOut 9
        (showing [⟨.force, 2, .continuous, none⟩] .on (some .force) .continuous)))
    (fun t => ((t.out 9).force, (t.out 9).claims, t.relayClosed 9)) = some (.off, [], false) := by decide +kernel

theorem test_forceRelease : after (exec (.forceRelease 0 toNode 9)
      (node.setOut 9 (showing [⟨.force, 2, .continuous, none⟩, ⟨.bell, 5, .tone .factory, some 9⟩] .on (some .force)
        .continuous)))
    (fun t => ((t.out 9).force, (t.out 9).winner)) = some (.none, some .bell) := by decide +kernel

/-- "Worked example: requests during a save". -/
theorem test_saveImage : after (exec (.saveImage 0 toNode) node)
    (fun t => (t.mu.save.map (·.tag), t.image, t.line.up.normal.length)) = some (some 9, none, 0) := by decide +kernel

theorem test_saveComplete : after (exec (.saveComplete 0) { node with mu := { node.mu with save := some ⟨Image.factory, 10⟩ } })
    (fun t => (t.mu.save, decide (t.image = some Image.factory), t.line.up.normal.map (fun i => (i.frame.tag, i.frame.payload))))
    = some (none, true, [(10, [10, 0])]) := by decide +kernel

theorem test_lineReset_busy : after (exec (.lineReset 0 ⟨toNode, false⟩) { node with mu := { node.mu with save := some ⟨Image.factory, 10⟩ } })
    (fun t => (t.mu.resetPending, t.line.up.normal.map (fun i => i.frame.payload))) = some (false, [[11, 7]]) := by
  decide +kernel

/-- R192: with the loss of UP taken first, the reply waits at the ABSENT port. -/
theorem test_lineReset_after_loss : after (exec (.lineReset 0 ⟨toNode, true⟩) node)
    (fun t => (t.mu.resetPending, t.line.up.link, t.line.up.normal.map (fun i => i.frame.payload)))
    = some (true, .absent, [[11, 0]]) := by decide +kernel

theorem test_lineReset_taken : after (exec (.frameTransmitEnd 0 .up)
      { nodeAt .synced 1 0 0 with
        line := { node.line with up := { hearing with tx := some ⟨toAll.frame 0x41 [], 0, 0, 0, .resetReply⟩ } },
        mu := { node.mu with resetPending := true } })
    (fun t => (t.mu.resetPending, t.tb.quality, t.line.up.normal.map (fun i => i.frame.payload.take 2)))
    = some (false, .holdover, [[9, 1], [2, 1]]) := by decide +kernel

theorem test_unassignedTimerExpiry : after (exec (.unassignedTimerExpiry 5000000) { node with mu := State.reset.mu })
    (fun t => (t.mu.unassignedEnd, t.line.up.normal.map (fun i => i.frame.payload.drop 10))) = some (some 10000000, [[1, 4]]) := by
  decide +kernel

theorem test_resetHeld : after (exec (.resetHeld 3 .power) { node with mu := { node.mu with save := some ⟨Image.factory, 1⟩ } })
    (fun t => (t.held, t.mainPower, t.line.up.link, t.image)) = some (true, false, .absent, none) := by decide +kernel

theorem test_backupSupplyLoss : after (exec (.backupSupplyLoss 0) { node with held := true, mainPower := false })
    (fun t => t.rs.checkOk) = some false := by decide +kernel

/-- R190: a backup supply lost while main power is present is remembered to the fall of main power. -/
theorem test_resetHeld_no_supply : after (exec (.backupSupplyLoss 0) node) (fun t => (t.rs.supply, t.rs.checkOk))
      = some (false, true) ∧
    after (exec (.resetHeld 0 .power) { node with rs := { node.rs with supply := false } }) (fun t => t.rs.checkOk)
      = some false := by decide +kernel

/-! ## Witnesses: a state and operands that meet the hypotheses of each statement, clause by clause -/

theorem node_hears_up : node.canHear .up := ⟨by decide, by decide, by decide⟩

theorem node_hears_down : node.canHear .down := ⟨by decide, by decide, by decide⟩

theorem node_takes (q : Quality) (day : Word16) (ms us : Nat) : (nodeAt q day ms us).canHear .up := ⟨rfl, rfl, rfl⟩

/-- The node takes a request that names it by address. -/
theorem node_takesRequest : node.takesRequest 0 toNode :=
  ⟨node_hears_up, rfl, by decide +kernel, rfl, by decide +kernel⟩

/-- The node takes a request that names it by position. -/
theorem node_takesRequest_place : node.takesRequest 0 toPlace :=
  ⟨node_hears_up, rfl, by decide +kernel, rfl, by decide +kernel⟩

theorem witness_FrontCommandRuns :
    (node.withPending [.localTick true]).pending = .localTick true :: [] ∧ node.pending = [] := ⟨rfl, rfl⟩

theorem witness_WellFormedCommandsComplete :
    (Instr.ping 0 toAll).wellFormed = true ∧ (Instr.drillBadCommand 0 toAll [1]).wellFormed = false := by decide

theorem witness_HeldNodeStandsStill :
    { node with held := true }.held = true ∧ (∀ dt w, Instr.ping 0 toNode ≠ .resetHeld dt w) ∧
      (∀ dt k m, Instr.ping 0 toNode ≠ .fullReset dt k m) ∧ (∀ dt, Instr.ping 0 toNode ≠ .backupCounterSecond dt) ∧
      (∀ dt, Instr.ping 0 toNode ≠ .backupSupplyLoss dt) ∧ ∃ t, exec (.ping 0 toNode) { node with held := true } = .next t :=
  ⟨rfl, nofun, nofun, nofun, nofun, _, rfl⟩

/-- The node with its UP port in a link state whose timer ends at 60000. -/
def upIn (l : LinkState) : State :=
  { node with line := { node.line with up :=
      { Port.reset with link := l, debounceEnd := some 60000, trainingEnd := some 60000 } } }

theorem witness_PortAttaches_moves :
    (upIn .absent).held = false ∧ ((upIn .absent).port .up).link = .absent ∧
      (((upIn .debounce).port .up).link = .debounce ∧ ((upIn .debounce).port .up).debounceEnd = some 60000 ∧
        60000 ≤ (upIn .debounce).now + 60000) ∧
      ((upIn .training).port .up).link = .training := by decide +kernel

theorem witness_PortAttaches_trained :
    ((upIn .training).held = false ∧ ((upIn .training).port .up).link = .training ∧
      ((upIn .training).port .up).trainingEnd = some 60000 ∧ 60000 ≤ (upIn .training).now + 60000) ∧
    (upIn .training).tb.echo = .idle ∧ (upIn .training).line.up.express.length < 4 ∧
    (upIn .training).mu.node.enables.getLsbD 0 = true ∧ (upIn .training).line.up.normal.length < 32 := by decide +kernel

theorem witness_LinkLost :
    node.held = false ∧ node.line.up.link = .active ∧
      (∀ i ∈ node.line.up.express ++ node.line.up.normal, i.origin ≠ .resetReply) ∧ node.line.down.link = .active ∧
      node.mu.node.enables.getLsbD 0 = true ∧ node.line.up.normal.length < 32 := by decide +kernel

/-- The node with its LINE_RESET reply waiting at UP. -/
def replying : State :=
  { node with
    line := { node.line with up := { hearing with normal := [⟨replyFrame 9 11 .ok [], none, .resetReply⟩] } },
    mu := { node.mu with resetPending := true } }

theorem witness_LinkLost_reply :
    replying.held = false ∧ replying.line.up.link = .active ∧
      (∃ i ∈ replying.line.up.express ++ replying.line.up.normal, i.origin = .resetReply) ∧
      replying.mu.node.enables.getLsbD 7 = true := by decide +kernel

/-- R192: the loss of UP flushes the reply, and the line reset is taken. -/
theorem test_lineReset_flushed : after (exec (.lineSignalLost 0 .up) replying)
    (fun t => (t.mu.resetPending, t.line.up.link, t.line.up.normal.map (fun i => i.frame.payload.take 2)))
    = some (false, .absent, [[9, 1]]) := by decide +kernel

theorem witness_ReceptionEnds :
    node.held = false ∧ (node.port .down).link = .active ∧ (node.port .down).rx.isSome = true ∧
      (checkFailure (List.replicate 9 0) = some .length ∧ (List.replicate 9 (0 : Byte)).length ≤ 250) ∧
      (checkFailure (List.replicate 10 0) = some .crc ∧ (List.replicate 10 (0 : Byte)).length ≤ 250) ∧
      checkFailure (List.replicate 250 0) = some .length := by decide +kernel

theorem witness_SelectorsMatch :
    toAll.mode = 0 ∧ toPlace.mode = 1 ∧ toNode.mode = 2 ∧ node.mu.addr ≠ 0 ∧ State.reset.mu.addr = 0 ∧
      { toAll with sel := 0xC000 }.mode = 3 := by decide +kernel

/-- The node before it has learned a position. -/
def unplaced : State := { node with line := { node.line with hop := none } }

theorem witness_PositionLearned :
    toAll.port = .up ∧ fromBelow.port = .down ∧ (node.arrived 0 toAll).line.hop = node.line.hop ∧
      ((unplaced.arrived 0 { toAll with hops := 254 }).line.hop = some 255 ∧ unplaced.line.hop ≠ some 255 ∧
        unplaced.mu.node.enables.getLsbD 0 = true ∧ unplaced.line.up.normal.length < 32) := by decide +kernel

/-- The node with its UP port ABSENT, or its DOWN port ABSENT. -/
def upAbsent : State := { node with line := { node.line with up := Port.reset } }

def downAbsent : State := { node with line := { node.line with down := Port.reset } }

/-- A number of queued frames. -/
def items (n : Nat) : List QItem := List.replicate n ⟨toAll.frame 5 [], some 0, .relayDown⟩

/-- The node with every queue but UP express filled to its capacity. -/
def fullQueues : State :=
  { node with line := { node.line with
      up := { hearing with normal := items 32 }, down := { hearing with express := items 8, normal := items 16 } } }

/-- The node with its LINE notices disabled. -/
def quieted : State :=
  { node with mu := { node.mu with node := { node.mu.node with enables := 0 } } }

/-- The clauses of the loss of DOWN without a notice: LINE notices disabled, and UP normal full. -/
theorem witness_LinkLost_quiet :
    (quieted.held = false ∧ quieted.line.down.link = .active ∧ quieted.mu.node.enables.getLsbD 0 = false) ∧
      fullQueues.held = false ∧ fullQueues.line.down.link = .active ∧ 32 ≤ fullQueues.line.up.normal.length := by decide +kernel

/-- R24: the loss of DOWN leaves the UP port, the hop position and, without a notice, UP normal. -/
theorem test_downLost_quiet : after (exec (.lineSignalLost 0 .down) quieted)
    (fun t => (decide (t.line.up = quieted.line.up), t.line.hop, t.counter .downLoss, t.counter .downAborted))
    = some (true, some 4, 1, 1) := by decide +kernel

theorem fullQueues_hears (p : PortId) : fullQueues.canHear p := by cases p <;> exact ⟨rfl, rfl, rfl⟩

theorem witness_UpstreamTaken :
    node.canHear .down ∧ fromBelow.port = .down ∧ ([] : List Byte).length ≤ 240 ∧
      (node.line.up.link = .active ∧ node.line.up.normal.length < 32) ∧
      (upAbsent.canHear .down ∧ upAbsent.line.up.link ≠ .active) ∧ node.line.down.express.length < 8 ∧
      (fullQueues.canHear .down ∧ 8 ≤ fullQueues.line.down.express.length ∧ fullQueues.line.up.link = .active ∧
        32 ≤ fullQueues.line.up.normal.length) :=
  ⟨node_hears_down, rfl, by decide, by decide, ⟨⟨rfl, rfl, rfl⟩, by decide⟩, by decide, fullQueues_hears _, by decide, rfl,
    by decide⟩

theorem witness_UnknownForwarded :
    (0x77 : Byte) ∉ knownKinds ∧ (node.canHear toAll.port ∧ toAll.port = .up ∧ node.line.down.normal.length < 16) ∧
      (fullQueues.canHear toAll.port ∧ 16 ≤ fullQueues.line.down.normal.length) ∧
      (downAbsent.canHear toAll.port ∧ downAbsent.line.down.link ≠ .active) ∧
      (node.canHear fromBelow.port ∧ fromBelow.port = .down ∧ node.line.up.normal.length < 32) ∧
      (fullQueues.canHear fromBelow.port ∧ 32 ≤ fullQueues.line.up.normal.length) ∧
      (upAbsent.canHear fromBelow.port ∧ upAbsent.line.up.link ≠ .active) :=
  ⟨by decide, ⟨node_hears_up, rfl, by decide⟩, ⟨fullQueues_hears _, by decide⟩, ⟨⟨rfl, rfl, rfl⟩, by decide⟩,
    ⟨node_hears_down, rfl, by decide⟩, ⟨fullQueues_hears _, by decide⟩, ⟨rfl, rfl, rfl⟩, by decide⟩

theorem witness_FramesNotTaken :
    (node.canHear fromBelow.port ∧ fromBelow.port = .down) ∧ (node.canHear toAll.port ∧ toAll.port = .up) ∧
      ([] : List Byte).length ≠ 11 ∧ (timePayload 0 86400000 0 0).length = 11 ∧ 86400000 ≤ (word32At (timePayload 0 86400000 0 0) 2).toNat ∧
      node.line.down.link = .active ∧ node.line.down.express.length < 8 :=
  ⟨⟨node_hears_down, rfl⟩, ⟨node_hears_up, rfl⟩, by decide, by decide, by decide, by decide, by decide⟩

/-- The node with frames waiting at DOWN, the last one sent at 0. -/
def waiting (e n : List QItem) : State :=
  { node with line := { node.line with down := { hearing with express := e, normal := n, lastTxEnd := some 0 } } }

theorem witness_TransmissionsRun_starts :
    (waiting (items 1) (items 1)).held = false ∧ ((waiting (items 1) (items 1)).port .down).link = .active ∧
      ((waiting (items 1) (items 1)).port .down).tx = none ∧
      (∀ l, ((waiting (items 1) (items 1)).port .down).lastTxEnd = some l → l + 2 ≤ (waiting (items 1) (items 1)).now + 2) ∧
      (((waiting (items 1) (items 1)).port .down).express = ⟨toAll.frame 5 [], some 0, .relayDown⟩ :: [] ∧
        ((waiting (items 1) (items 1)).port .down).normal = items 1) ∧
      (((waiting [] (items 1)).port .down).express = [] ∧
        ((waiting [] (items 1)).port .down).normal = ⟨toAll.frame 5 [], some 0, .relayDown⟩ :: []) := by
  refine ⟨rfl, rfl, rfl, ?_, ⟨rfl, rfl⟩, rfl, rfl⟩
  intro l h
  cases h
  decide

theorem witness_FieldsWritten : (toAll.frame 1 (timePayload 1 2 3 4)).payload.length = 11 ∧ node.line.hop = some 4 ∧
    unplaced.line.hop = none ∧ (node.written ⟨replyFrame 9 11 .ok [], none, .resetReply⟩).hops = 4 := by decide

/-- The node sending a frame at UP that ends at 44. -/
def sending (o : Origin) : State :=
  { node with line := { node.line with up := { hearing with tx := some ⟨toAll.frame 0x41 [], 0, 0, 44, o⟩ } } }

theorem witness_TransmissionsRun_ends :
    (sending .own).held = false ∧ ((sending .own).port .up).tx = some ⟨toAll.frame 0x41 [], 0, 0, 44, .own⟩ ∧
      44 ≤ (sending .own).now + 44 := by decide +kernel

theorem witness_LineResetTaken :
    (sending .resetReply).held = false ∧
      (sending .resetReply).line.up.tx = some ⟨toAll.frame 0x41 [], 0, 0, 44, .resetReply⟩ ∧
      44 ≤ (sending .resetReply).now + 44 ∧ (sending .resetReply).mu.node.enables.getLsbD 7 = true := by decide +kernel

/-- A request by the node's exact address stops at the node, and one to all does not. -/
theorem witness_LineResetTaken_full :
    fullQueues.canHear .up ∧ (toNode.port = .up ∧ toAll.port = .up) ∧
      ((fullQueues.arrived 0 toNode).selected toNode = true ∧ (fullQueues.arrived 0 toAll).selected toAll = true) ∧
      fullQueues.mu.resetPending = false ∧ fullQueues.mu.save = none ∧
      ((fullQueues.arrived 0 toNode).hasRoom .upNormal = false ∧ (fullQueues.arrived 0 toAll).hasRoom .upNormal = false) ∧
      (fullQueues.arrived 0 toNode).consumes toNode = true ∧ (fullQueues.arrived 0 toAll).consumes toAll = false ∧
      fullQueues.line.down.link = .active :=
  ⟨fullQueues_hears .up, ⟨rfl, rfl⟩, by decide +kernel, rfl, rfl, by decide +kernel, by decide +kernel, by decide +kernel, rfl⟩

theorem witness_CrcAgrees : (toAll.frame 5 (List.replicate 240 0)).payload.length ≤ 240 := by decide +kernel

theorem witness_EstimateFormed :
    (86399999 ≤ 86399999 ∧ 1500 ≤ 4294967295 ∧ 600 ≤ 50000 ∧ 86400000000 ≤ 86399999 * 1000 + 1500 + 600) ∧
      86399999 * 1000 + 999 + 0 < 86400000000 := by decide

/-- The slew example in HOLDOVER. -/
def slewingHoldover : State := { slewing with tb := { slewing.tb with quality := .holdover } }

theorem witness_TimeSlewed :
    (slewing.canHear .up ∧ toAll.port = .up ∧
      timeFields (timePayload 400 29250000 1840 17) = some ⟨400, 29250000, 1840, 17⟩ ∧ slewing.tb.quality = .synced ∧
      slewing.tb.epoch = some 17 ∧
      ((slewing.arrived 0 toAll).tb.offsetMs (TimeFields.estimate ⟨400, 29250000, 1840, 17⟩ slewing.tb.linkDelay)).natAbs <
        slewing.mu.node.stepThreshold ∧
      slewing.line.down.link = .active ∧ slewing.line.down.express.length < 8) ∧
    (slewingHoldover.canHear .up ∧ slewingHoldover.tb.quality = .holdover ∧
      slewingHoldover.mu.node.enables.getLsbD 1 = true ∧
      (slewingHoldover.arrived 0 toAll).hasRoom .upNormal = true) :=
  ⟨⟨⟨rfl, rfl, rfl⟩, rfl, by decide +kernel, rfl, rfl, by decide +kernel, rfl, by decide⟩, ⟨rfl, rfl, rfl⟩, rfl,
    by decide, by decide +kernel⟩

/-- The lag of TimeStepped can end a local millisecond or none. -/
theorem witness_TimeStepped_lag :
    slewing.tb.slewCount < 50 ∧ ((slewing.arrived 0 toAll).tb.phase + (899 : Word32).toNat) / 1000 = 0 ∧
      ((slewing.arrived 0 toAll).tb.phase + (900 : Word32).toNat) / 1000 = 1 := by decide +kernel

/-- A TIME frame of another epoch steps, and so does one whose offset reaches the threshold of 1,000 ms. -/
theorem witness_TimeStepped :
    slewing.canHear .up ∧ toAll.port = .up ∧
      (timeFields (timePayload 400 29250000 1840 18) = some ⟨400, 29250000, 1840, 18⟩ ∧ slewing.tb.epoch ≠ some 18) ∧
      (node.canHear .up ∧ node.tb.quality = .invalid) ∧
      slewing.mu.node.stepThreshold ≤
        ((slewing.arrived 0 toAll).tb.offsetMs (TimeFields.estimate ⟨400, 29250996, 1488, 17⟩ slewing.tb.linkDelay)).natAbs :=
  ⟨⟨rfl, rfl, rfl⟩, rfl, ⟨by decide +kernel, by decide⟩, ⟨node_hears_up, rfl⟩, by decide +kernel⟩

theorem witness_TickMovesTime :
    node.held = false ∧ node.tb.quality = .invalid ∧ slewing.held = false ∧ slewing.tb.quality ≠ .invalid := by decide +kernel

/-- The node with a Timebase timer that ends at 5. -/
def timing (q : Quality) (e : EchoState) : State :=
  { node with
    tb := { State.reset.tb with quality := q, timeoutEnd := some 5, echo := e, echoPeriod := some 5 },
    rs := { node.rs with second := 86398 } }

theorem witness_TimebaseTimers :
    (timing .synced .idle).held = false ∧ (timing .synced .idle).tb.quality = .synced ∧
      (timing .synced .idle).tb.timeoutEnd = some 5 ∧ 5 ≤ (timing .synced .idle).now + 5 ∧
      ((timing .synced .idle).tb.echo = .idle ∧ (timing .synced .idle).tb.echoPeriod = some 5 ∧
        (timing .synced .idle).line.up.express.length < 4) ∧
      (timing .synced (.awaiting 0 5)).tb.echo = .awaiting 0 5 ∧
      ((timing .synced .idle).rs.checkOk = true ∧ (timing .synced .idle).rs.second < 86399) ∧
      (node.rs.checkOk = true ∧ { node.rs with second := 86399 }.second = 86399) := by decide +kernel

/-- The link delay example: a turnaround of 1,340 µs is not above the round trip, and one of 1,341 µs is. -/
theorem witness_EchoMeasured :
    (awaiting 600 true).canHear .up ∧ (awaiting 600 true).tb.echo = .awaiting 1000000 1100000 ∧
      (enc32 1340 ++ List.replicate 7 (0 : Byte)).length = 11 ∧ { toAll with tag := 36 }.tag = (awaiting 600 true).tb.echoTag ∧
      (word32At (enc32 1340) 0).toNat ≤ (BitVec.ofNat 32 ((awaiting 600 true).now + 0) - 1000000).toNat ∧
      (BitVec.ofNat 32 ((awaiting 600 true).now + 0) - 1000000).toNat < (word32At (enc32 1341) 0).toNat ∧
      (awaiting 600 true).tb.sampleTaken = true ∧ (awaiting 500 false).tb.sampleTaken = false :=
  ⟨⟨rfl, rfl, rfl⟩, rfl, by decide, by decide, by decide +kernel, by decide +kernel, rfl, rfl⟩

theorem witness_SelectApplied :
    node.canHear .up ∧ toAll.port = .up ∧ (node.arrived 0 toAll).selected toAll = true ∧
      selectGood (enc16 9 ++ List.replicate 54 0) = true ∧ (enc16 9 ++ List.replicate 54 (0 : Byte)).length ≤ 240 ∧
      selectGood (enc16 0) = false :=
  ⟨node_hears_up, rfl, by decide +kernel, by decide +kernel, by decide +kernel, by decide +kernel⟩

/-- Zones 4 and 15 are the ends of the first window that covers them. -/
theorem witness_FirstWindowDecides :
    [Window.factory, ⟨true, .bell, 4, 15, 2⟩] = [Window.factory] ++ ⟨true, .bell, 4, 15, 2⟩ :: [] ∧
      (∀ x ∈ [Window.factory], x.covers .bell 4 = false) ∧ Window.covers ⟨true, .bell, 4, 15, 2⟩ .bell 4 = true ∧
      Window.covers ⟨true, .bell, 4, 15, 2⟩ .bell 15 = true ∧ searchZone .speaker 4 [⟨true, .bell, 4, 15, 2⟩] = .notLocal := by
  decide

/-- A BELL_NOW payload to all outputs with pattern 15. -/
def bellPayload : List Byte := encTarget ⟨2, 0, 0⟩ ++ [15, 121, 1] ++ List.replicate 10 0

theorem witness_BellNowTaken :
    node.canHear .up ∧ toAll.port = .up ∧ bellPayload.length = 18 ∧ (node.arrived 0 toAll).selected toAll = true ∧
      (byteAt bellPayload 5).toNat ≤ 15 ∧ node.fireMute = false ∧
      (node.zm.resolveBell (targetAt bellPayload 0) ((byteAt bellPayload 7).getLsbD 0)).set ≠ [] ∧
      ((node.setFire .clearing 1).canHear .up ∧ (node.setFire .clearing 1).fireMute = true) :=
  ⟨node_hears_up, rfl, by decide +kernel, by decide +kernel, by decide +kernel, rfl, by decide +kernel, ⟨rfl, rfl, rfl⟩, rfl⟩

theorem witness_BankActivated :
    node.takesRequest 0 toNode ∧ node.bs.pendingSwap = false ∧ firstOutOfOrder node.bs.standbyBank = none ∧
      { node.bs with pendingSwap := true }.pendingSwap = true ∧
      firstOutOfOrder { node.bs with bankB := unordered }.standbyBank = some 8 :=
  ⟨node_takesRequest, rfl, by decide +kernel, rfl, by decide +kernel⟩

/-- The scheduler with two calendar entries for day 402. -/
def calendared : BellScheduler :=
  { State.reset.bs with calendar := (State.reset.bs.calendar.set 5 ⟨true, 402, .day 3⟩).set 9 ⟨true, 402, .day 4⟩ }

theorem witness_PlanOfDay :
    (calendared.calendar[(5 : Fin 64)].valid = true ∧ calendared.calendar[(5 : Fin 64)].date = 402 ∧
      ∀ j : Fin 64, j < 5 → ¬(calendared.calendar[j].valid = true ∧ calendared.calendar[j].date = 402)) ∧
    (∀ i : Fin 64, ¬(calendared.calendar[i].valid = true ∧ calendared.calendar[i].date = 403)) ∧
    (4 : Fin 7).val = (403 : Word16).toNat % 7 := by decide +kernel

/-- A running node in plan 0 whose one bell is due at 08:00:00, with a high-water mark. -/
def scheduled (q : Quality) (ms : Nat) (hwm : Option Nat) : State :=
  { nodeAt q 400 ms 0 with bs := { State.reset.bs with
      bankA := emptyBank.set 3 ⟨28800, 1, .bell, 0, 15, ⟨2, 0, 0⟩, 120⟩, plan := some (.day 0), hwm := hwm } }

theorem scheduled_noneArmed (q : Quality) (ms : Nat) (hwm : Option Nat) : (scheduled q ms hwm).noneArmed := by
  intro d h
  cases h

/-- The only entry of `scheduled` that is not EMPTY. -/
theorem scheduled_entry (j : Fin 256) (h : (emptyBank.set 3 ⟨28800, 1, .bell, 0, 15, ⟨2, 0, 0⟩, 120⟩)[j].kind ≠ .empty) :
    j = 3 := by
  revert h j
  decide +kernel

/-- The marks 28,799 and 28,800 are the two sides of the bell's second. -/
theorem test_cursor :
    cursorOf (scheduled .synced 0 none).bs.activeBank (some 28799) = some 3 ∧
      cursorOf (scheduled .synced 0 none).bs.activeBank (some 28800) = none := by decide +kernel

theorem test_bell_rung : after (exec (.localTick false) (scheduled .synced 28799999 (some 28799)))
    (fun t => ((t.out 9).claims.map (·.ends), t.bs.hwm, t.bs.cursor, t.counter .bellsFired))
    = some ([some 120001000], some 28800, none, 1) := by decide +kernel

theorem test_bell_late : after (exec (.time 0 toAll (timePayload 400 28810000 0 18) 0 false)
      (scheduled .synced 28790000 (some 28790)))
    (fun t => ((t.out 9).claims.map (·.ends), t.bs.hwm, t.counter .missed)) = some ([some 120000000], some 28810, 0) := by
  decide +kernel

theorem test_bell_missed : after (exec (.time 0 toAll (timePayload 400 28811000 0 18) 0 false)
      (scheduled .synced 28790000 (some 28790)))
    (fun t => ((t.out 9).claims.length, t.bs.hwm, t.counter .missed)) = some (0, some 28811, 1) := by decide +kernel

theorem witness_BellSeconds :
    (scheduled .synced 28799999 (some 28799)).held = false ∧ (scheduled .synced 28799999 (some 28799)).tb.quality ≠ .invalid ∧
      (28799998 / 1000 = (28799998 + 1) / 1000 ∧ 28799999 / 1000 < (28799999 + 1) / 1000 ∧ 86399999 < 86400000) ∧
      (scheduled .synced 28799999 (some 28799)).noneArmed ∧
      (scheduled .synced 28799999 (some 28799)).bs.pendingSwap = false ∧
      (aboveMark (some 28799) 28800 = true ∧ aboveMark (some 28800) 28800 = false ∧ aboveMark none 0 = true) ∧
      ((scheduled .synced 28799999 (some 28799)).bs.activeBank[(3 : Fin 256)].time = 28800 ∧
        (scheduled .synced 28799999 (some 28799)).ringable
          (scheduled .synced 28799999 (some 28799)).bs.activeBank[(3 : Fin 256)]) ∧
      (∀ j : Fin 256, j ≠ 3 → (scheduled .synced 28799999 (some 28799)).bs.activeBank[j].kind ≠ .empty →
        (scheduled .synced 28799999 (some 28799)).bs.activeBank[j].time ≠ 28800) ∧
      ({ scheduled .synced 28799999 (some 28799) with fdc := { node.fdc with fire := .clearing } }.fireMute = true ∧
        { scheduled .synced 28799999 (some 28799) with fdc := { node.fdc with fire := .clearing } }.noneArmed) :=
  ⟨rfl, nofun, by decide, scheduled_noneArmed _ _ _, rfl, by decide, ⟨by decide +kernel,
    ⟨by decide +kernel, by decide +kernel, rfl, by decide +kernel⟩⟩,
    fun j h k => absurd (scheduled_entry j k) h, rfl, fun _ h => nomatch h⟩

theorem scheduled_hears (q : Quality) (ms : Nat) (hwm : Option Nat) : (scheduled q ms hwm).canHear .up := ⟨rfl, rfl, rfl⟩

/-- A step to second 28,810 finds the bell at the far end of the late window of 10 s. -/
theorem witness_BellSteps :
    (scheduled .synced 28790000 (some 28790)).canHear .up ∧ toAll.port = .up ∧
      timeFields (timePayload 400 28810000 0 18) = some ⟨400, 28810000, 0, 18⟩ ∧
      ((scheduled .synced 28790000 (some 28790)).arrived 0 toAll).tb.phase + (999 : Word32).toNat < 1000 ∧
      (scheduled .synced 28790000 (some 28790)).tb.epoch ≠ some 18 ∧
      (TimeFields.estimate ⟨400, 28810000, 0, 18⟩ 500 = (28810000500, 400) ∧
        carryForward (28810000500, 400) 999 = (28810001499, 400)) ∧
      (scheduled .invalid 0 none).tb.quality = .invalid ∧ (scheduled .backup 28790000 none).tb.quality = .backup ∧
      (scheduled .synced 28790000 (some 28790)).noneArmed ∧
      (aboveMark (some 28790) 28800 = true ∧ 28810 ≤ 28800 + 10 ∧ ¬ 28811 ≤ 28800 + 10 ∧
        (scheduled .synced 28790000 (some 28790)).mu.node.lateWindow = 10) ∧
      (scheduled .synced 28790000 (some 28790)).ringable
        (scheduled .synced 28790000 (some 28790)).bs.activeBank[(3 : Fin 256)] ∧
      (∀ j : Fin 256, j ≠ 3 → (scheduled .synced 28790000 (some 28790)).bs.activeBank[j].kind = .empty) ∧
      (0 < ((401 : Word16) - 400).toInt ∧ ((399 : Word16) - 400).toInt < 0) :=
  ⟨scheduled_hears .., rfl, by decide +kernel, by decide +kernel, by decide, ⟨by decide +kernel, by decide +kernel⟩, rfl, rfl,
    scheduled_noneArmed _ _ _, ⟨by decide, by decide, by decide, rfl⟩,
    ⟨by decide +kernel, by decide +kernel, rfl, by decide +kernel⟩, by decide +kernel, by decide⟩

theorem witness_LeadingIsLowest :
    leading [⟨.bell, 5, .continuous, none⟩, ⟨.page 1, 4, .page, none⟩, ⟨.page 2, 4, .page, none⟩] =
      some ⟨.page 1, 4, .page, none⟩ := by decide

/-- The node with both force permissions. -/
def forcible : State :=
  { node with mu := { node.mu with node := { NodeCfg.factory with allowForceOn := true, allowForceOff := true } } }

theorem witness_ForceChanges :
    forcible.takesRequest 0 toNode ∧ forcible.mu.node.allowForceOn = true ∧ forcible.mu.node.allowForceOff = true ∧
      (15 : Output).val < 16 ∧ 16 ≤ (16 : Output).val ∧ (forcible.out 15).force ≠ .on ∧ (forcible.out 23).force ≠ .off :=
  ⟨⟨⟨rfl, rfl, rfl⟩, rfl, by decide +kernel, rfl, by decide +kernel⟩, rfl, rfl, by decide, by decide, by decide +kernel,
    by decide +kernel⟩

/-- B9 rung by a BELL claim whose pattern stands in a phase. -/
def ringing (p : TonePattern) (pos : TonePos) : State :=
  node.setOut 9 (showing [⟨.bell, 5, .tone p, some 9000000⟩] .none (some .bell) (.tone pos 128))

theorem witness_SoundsEnd_bell :
    (ringing .factory ⟨0, true, 0⟩).held = false ∧
      (⟨.bell, 5, .tone .factory, some 9000000⟩ : Claim) ∈ ((ringing .factory ⟨0, true, 0⟩).out 9).claims ∧
      9000000 ≤ (ringing .factory ⟨0, true, 0⟩).now + 9000000 := by decide +kernel

/-- Two patterns of one step of 500 ms and 250 ms, with repeat and without, and one of two steps. -/
def once : TonePattern := ⟨false, [⟨50, 25, 1⟩]⟩

def again : TonePattern := ⟨true, [⟨50, 25, 1⟩]⟩

def two : TonePattern := ⟨true, [⟨50, 0, 1⟩, ⟨50, 25, 2⟩]⟩

theorem witness_SoundsEnd_tone :
    ((ringing once ⟨0, true, 0⟩).out 9).play = .tone ⟨0, true, 0⟩ 128 ∧
      ((ringing once ⟨0, true, 0⟩).out 9).winning = some ⟨.bell, 5, .tone once, some 9000000⟩ ∧
      once.steps[0]? = some ⟨50, 25, 1⟩ ∧ 0 + 50 * 10000 ≤ (ringing once ⟨0, true, 0⟩).now + 500000 ∧
      (((ringing two ⟨0, true, 0⟩).out 9).winning = some ⟨.bell, 5, .tone two, some 9000000⟩ ∧
        two.steps[0]? = some ⟨50, 0, 1⟩ ∧ 0 + 1 < two.steps.length) ∧
      (((ringing again ⟨0, false, 0⟩).out 9).winning = some ⟨.bell, 5, .tone again, some 9000000⟩ ∧
        again.steps.length ≤ 0 + 1 ∧ again.repeats = true) ∧
      (((ringing once ⟨0, false, 0⟩).out 9).winning = some ⟨.bell, 5, .tone once, some 9000000⟩ ∧
        once.steps.length ≤ 0 + 1 ∧ once.repeats = false) := by decide +kernel

/-- A chime of two steps in its first ON phase, and a chime at its last OFF phase. -/
theorem witness_SoundsEnd_chime :
    (node.setCall 0 (some ⟨3, 0, [16], some two, 128, .chime, none, [], none, 0, none, 0, some 1250000,
        some ⟨0, true, 0⟩⟩)).call 0 =
      some ⟨3, 0, [16], some two, 128, .chime, none, [], none, 0, none, 0, some 1250000, some ⟨0, true, 0⟩⟩ ∧
    two.steps[0]? = some ⟨50, 0, 1⟩ ∧ 0 + 50 * 10000 ≤ node.now + 500000 ∧
    again.steps[0]? = some ⟨50, 25, 1⟩ ∧ 0 + 25 * 10000 ≤ node.now + 250000 ∧ again.steps.length ≤ 0 + 1 := by decide +kernel

/-- S0 held by the page call of record 0. -/
def speaking (st : CallState) (inPlay : Option InPlay) (chimePos : Option TonePos) : State :=
  (node.setCall 0 (some ⟨3, 2, [16], some again, 128, st, none, [], inPlay, 0, none, 0, none, chimePos⟩)).setOut 16
    (showing [⟨.page 0, 4, .page, none⟩] .none (some (.page 0)) (.page 128 255 none))

/-- The table of R109, and the peaks of R95. -/
theorem test_samples :
    [playedSample 20000 200 160, playedSample (-1000) 100 128, playedSample 12345 128 128, playedSample 500 0 128,
      playedSample (-3) 128 64] = [32767, -781, 12345, 0, -2] ∧
    [tonePeak 255, tonePeak 128, tonePeak 0] = [32767, 16448, 0] ∧ toneSample 255 5 5 = 0 ∧
    toneSample 255 2 4 = 32767 ∧ toneSample 255 2 12 = -32767 := by decide +kernel

/-- R109: the winner changes from call 0 to call 1, back and again while one frame of each lasts, and each frame saturates:
each is counted CLIPPED once for the zone. -/
theorem test_clipped_once :
    let call (n : Nat) : Call :=
      ⟨n, 2, [16], none, 255, .play, none, [], some ⟨.samples (List.replicate 40 20000), 0, 255⟩, 0, some 9000000, n,
        none, none⟩
    let yields (r : Fin 8) (s : State) := rechooseAll [16] ((s.elapse 200).addClaim ⟨.page r, 4, .page, none⟩ 16)
    let both := ((node.setCall 0 (some (call 0))).setCall 1 (some (call 1))).setOut 16
      (showing [⟨.page 0, 4, .page, none⟩, ⟨.page 1, 4, .page, none⟩] .none (some (.page 0)) (.page 128 255 (some 0)))
    (yields 0 both).counter .clipped = 1 ∧ (yields 1 (yields 0 both)).counter .clipped = 2 ∧
      (yields 1 (yields 0 (yields 1 (yields 0 both)))).counter .clipped = 2 ∧
      (yields 0 { both with now := 5000 }.frameTick).counter .clipped = 1 := by decide +kernel

theorem witness_PinsCarry :
    ((ringing again ⟨0, true, 0⟩).held = false ∧ (9 : Output).val < 16 ∧
      ((ringing again ⟨0, true, 0⟩).out 9).play = .tone ⟨0, true, 0⟩ 128 ∧
      ((ringing again ⟨0, true, 0⟩).out 9).winning = some ⟨.bell, 5, .tone again, some 9000000⟩ ∧
      again.steps[0]? = some ⟨50, 25, 1⟩ ∧ (ringing again ⟨0, false, 0⟩).relayClosed 9 = false ∧
      (ringing again ⟨0, true, 0⟩).relayClosed 9 = true) ∧
    (node.out 9).winner = none ∧
    ((speaking .chime none (some ⟨0, true, 0⟩)).out 16).winning = some ⟨.page 0, 4, .page, none⟩ ∧
    ((speaking .chime none (some ⟨0, true, 0⟩)).elapse 1000).speakerSample 16 = toneSample 255 1 8 ∧
    (speaking .chime none none).speakerSample 16 = 0 ∧
    ((speaking .play (some ⟨.samples [0, 5], 0, 128⟩) none).elapse 125).speakerSample 16 = 5 ∧
    (speaking .prefill none none).speakerSample 16 = 0 ∧
    (speaking .play (some ⟨.silence, 0, 128⟩) none).speakerSample 16 = 0 ∧
    (pulsing .good).terminals 2 = some .a ∧ node.terminals 2 = none ∧
    (node.indicator .indB = false ∧ { node with fdc := { node.fdc with trouble := true } }.indicator .indA = true ∧
      (pulsing .good).indicator .indA = false) := by decide +kernel

/-- A PAGE_OPEN payload to all zones on a channel, with a chime. -/
def openPayload (channel chime : Byte) : List Byte := [channel, 3, chime, 128] ++ encTarget ⟨2, 0, 0⟩ ++ List.replicate 9 0

theorem witness_PageOpened :
    node.canHear .up ∧ toAll.port = .up ∧ (node.arrived 0 toAll).selected toAll = true ∧
      openFields (openPayload 15 0xFF) = some ⟨15, 3, 0xFF, 128, ⟨2, 0, 0⟩⟩ ∧
      openFields (openPayload 0 15) = some ⟨0, 3, 15, 128, ⟨2, 0, 0⟩⟩ ∧ (node.zm.resolvePage ⟨2, 0, 0⟩).set ≠ [] ∧
      node.callOn 15 = none ∧ node.callOn 0 = none ∧ node.freeRecord = some 0 :=
  ⟨node_hears_up, rfl, by decide +kernel, by decide +kernel, by decide +kernel, by decide +kernel, by decide +kernel,
    by decide +kernel, by decide +kernel⟩

theorem calling_hears (st : CallState) (x : Option Byte) (l : List AudioFrame) : (calling st x l).canHear .up :=
  ⟨rfl, rfl, rfl⟩

/-- The call that `calling` holds in record 0. -/
def callOf (st : CallState) (expected : Option Byte) (fifo : List AudioFrame) : Call :=
  ⟨3, 2, [16, 17], none, 128, st, expected, fifo, none, 0, some 2000000, 0, none, none⟩

/-- Eight calls on the channels 0 to 7, opened in this order across the wrap of the open order counter, those from record 4 on
the least urgent. -/
def crowded : State :=
  { node with pe := { node.pe with
      openOrder := 4,
      calls := Vector.ofFn (fun r : Fin 8 => some ⟨r.val, if 4 ≤ r.val then 3 else 0, [16], none, 128, .prefill, none, [], none,
        0, some 2000000, BitVec.ofNat 16 (65532 + r.val), none, none⟩) } }

/-- R102: the call of order 3 is the latest-opened, though orders up to 65,535 stand. -/
theorem test_evicts : after (exec (.pageOpen 0 toAll ([15, 2, 0xFF, 128] ++ encTarget ⟨2, 0, 0⟩ ++ List.replicate 9 0))
      crowded)
    (fun t => (allRecords.map (fun r => (t.call r).map (·.channel)), t.counter .evicted))
    = some ([some 0, some 1, some 2, some 3, some 4, some 5, some 6, some 15], 1) := by decide +kernel

theorem witness_CallsRetaken :
    ((calling .drain (some 5) [.silence, .silence, .silence]).canHear .up ∧ toAll.port = .up ∧
      ((calling .drain (some 5) [.silence, .silence, .silence]).arrived 0 toAll).selected toAll = true ∧
      openFields (openPayload 3 0xFF) = some ⟨3, 3, 0xFF, 128, ⟨2, 0, 0⟩⟩ ∧
      (node.zm.resolvePage ⟨2, 0, 0⟩).set ≠ [] ∧
      (calling .drain (some 5) [.silence, .silence, .silence]).callOn 3 = some 0 ∧
      (calling .chime none []).callOn 3 = some 0) ∧
    (crowded.canHear .up ∧ (crowded.arrived 0 toAll).selected toAll = true ∧ crowded.callOn 15 = none ∧
      (∀ r : Fin 8, crowded.call r ≠ none) ∧ openFields (openPayload 15 0xFF) = some ⟨15, 3, 0xFF, 128, ⟨2, 0, 0⟩⟩ ∧
      crowded.evictable.map (fun p => (p.1, p.2.priority)) = some (7, 3) ∧
      (allRecords.all (fun r => (crowded.call r).all (fun c => decide (c.priority ≤ 3))))) :=
  ⟨⟨calling_hears .., rfl, by decide +kernel, by decide +kernel, by decide +kernel, by decide +kernel, by decide +kernel⟩,
    ⟨rfl, rfl, rfl⟩, by decide +kernel, by decide +kernel, by decide +kernel, by decide +kernel, by decide +kernel,
    by decide +kernel⟩

theorem witness_PageClosed :
    (calling .chime none []).canHear .up ∧ ((calling .chime none []).arrived 0 toAll).selected toAll = true ∧
      (3 :: List.replicate 17 (0 : Byte)).length = 18 ∧ (byteAt (3 :: List.replicate 17 0) 0).toNat ≤ 15 ∧
      (calling .chime none []).callOn 3 = some 0 ∧ (calling .chime none []).call 0 = some (callOf .chime none []) ∧
      (calling .play none []).call 0 = some (callOf .play none []) ∧
      ((calling .prefill none [.silence]).callOn 3 = some 0 ∧
        (calling .prefill none [.silence]).call 0 = some (callOf .prefill none [.silence])) :=
  ⟨calling_hears .., by decide +kernel, by decide, by decide, by decide +kernel, by decide +kernel, by decide +kernel,
    by decide +kernel, by decide +kernel⟩

theorem witness_AudioTaken :
    (calling .prefill none [.silence, .silence]).canHear .up ∧ audioGood (audioPayload 3 255) = true ∧
      (calling .prefill none [.silence, .silence]).callOn (byteAt (audioPayload 3 255) 0).toNat = some 0 ∧
      (calling .prefill none [.silence, .silence]).call 0 = some (callOf .prefill none [.silence, .silence]) ∧
      ((calling .play (some 255) (List.replicate 7 .silence)).call 0 =
          some (callOf .play (some 255) (List.replicate 7 .silence)) ∧
        (callOf .play (some 255) (List.replicate 7 .silence)).expected = some (byteAt (audioPayload 3 255) 1) ∧
        (callOf .play (some 255) (List.replicate 7 .silence)).fifo.length < 8) :=
  ⟨calling_hears .., by decide +kernel, by decide +kernel, by decide +kernel, by decide +kernel, by decide +kernel,
    by decide +kernel⟩

/-- A call in CHIME whose chime ends at 1,100,000. -/
def chiming : Call := ⟨3, 0, [16], some .factory, 128, .chime, none, [], none, 0, none, 0, some 1100000, none⟩

theorem witness_CallTimersEnd :
    ((node.setCall 0 (some chiming)).held = false ∧ (node.setCall 0 (some chiming)).call 0 = some chiming ∧
      chiming.state = .chime ∧ chiming.chimeEnd = some 1100000 ∧ 1100000 ≤ (node.setCall 0 (some chiming)).now + 1100000) ∧
    ((calling .play none []).call 0 = some (callOf .play none []) ∧ (callOf .play none []).silenceEnd = some 2000000 ∧
      (calling .play none []).mu.node.enables.getLsbD 3 = true ∧ (calling .play none []).line.up.normal.length < 32) := by
  decide +kernel

/-- Calls in PLAY with a frame and with none after 18 and 19 underruns, and in DRAIN with a frame and with none. -/
def playing : State :=
  ((((node.setCall 0 (some (callOf .play none [.silence]))).setCall 1 (some { callOf .play none [] with underruns := 18 })).setCall
    2 (some { callOf .play none [] with underruns := 19 })).setCall 3 (some (callOf .drain none [.silence]))).setCall 4
    (some (callOf .drain none []))

theorem witness_FramesPlayed :
    playing.held = false ∧ playing.pe.nextTick ≤ playing.now + 5000 ∧
      playing.call 0 = some (callOf .play none [.silence]) ∧
      playing.call 1 = some { callOf .play none [] with underruns := 18 } ∧
      playing.call 2 = some { callOf .play none [] with underruns := 19 } ∧
      playing.call 3 = some (callOf .drain none [.silence]) ∧ playing.call 4 = some (callOf .drain none []) ∧
      playing.call 5 = none := by decide +kernel

/-- The pulse of `pulsing`. -/
def pulseOf (r : CheckResult) : Pulse := ⟨.a, 0, 600000, 300000, r, 20, 230⟩

theorem witness_PulseChecked :
    (pulsing .pending).held = false ∧ ((pulsing .pending).clockLine 2).pulse = some (pulseOf .pending) ∧
      (pulseOf .pending).midDue ≤ (pulsing .pending).now + 300000 ∧
      ((pulseOf .pending).openLim ≤ (20 : Byte).toNat ∧ (230 : Byte).toNat ≤ (pulseOf .pending).shortLim) ∧
      (19 : Byte).toNat < (pulseOf .pending).openLim ∧ (pulseOf .pending).shortLim < (231 : Byte).toNat ∧
      ((pulsing .pending).supCfg (circuitOfLine 2)).enabled = true ∧
      ((pulsing .pending).circ (circuitOfLine 2)).state ≠ .fault ∧ ((pulsing .pending).clockLine 2).pending = none := by
  decide +kernel

/-- A pulse with a pending position. -/
def pulsingWith (r : CheckResult) (x : PendingPos) : State :=
  (pulsing r).setClockLine 2 { (pulsing r).clockLine 2 with pending := some x }

theorem witness_PulseEnds :
    ((pulsing .good).clockLine 2).pulse = some (pulseOf .good) ∧ (pulseOf .good).due ≤ (pulsing .good).now + 600000 ∧
      ((pulsing .good).clockLine 2).pending = none ∧ ((pulsing .openLine).clockLine 2).pulse = some (pulseOf .openLine) ∧
      ((pulsing .openLine).clockLine 2).pending = none ∧
      ((pulsingWith .good (.position 305 none)).clockLine 2).pending = some (.position 305 none) ∧
      ((pulsingWith .good .unknown).clockLine 2).pending = some .unknown ∧
      ((pulsingWith .openLine (.position 305 none)).clockLine 2).pending = some (.position 305 none) ∧
      ((pulsingWith .openLine (.position 305 none)).clockLine 2).pulse = some (pulseOf .openLine) := by decide +kernel

/-- K2 in its gap wait, its hands one position behind and its window at 0. -/
def gapWaiting : State := (pulsing .good).setClockLine 2 ⟨.advance, none, none, some 400000, some 0, some 0⟩

/-- K2 at 05:10:00, its true position 310, with a window of 120, its hands at a position and its gap wait ending at 400,000;
then 1 ms before the step boundary of 05:10:00. -/
def handsAt (i : Option Nat) : State :=
  { gapWaiting with
    cld := { gapWaiting.cld with cfg := node.cld.cfg.set 2 ⟨.minute, .polarized, 600, 400, 120, 20, 230⟩ },
    rs := { gapWaiting.rs with lines := node.rs.lines.set 2 ⟨i, .b, true, some .minute⟩ } }

def beforeStep (i : Option Nat) (v : ClockLine) : State :=
  { (handsAt i).setClockLine 2 v with tb := (nodeAt .synced 400 18599999 0).tb }

/-- The table of R123: d of 0, 1, 599 and 600 with a window of 120 on a dial of 720, I UNKNOWN, a fault, and no time. -/
theorem test_evaluations :
    [handsAt (some 310), handsAt (some 309), handsAt (some 431), handsAt (some 430), handsAt none,
        (handsAt (some 309)).setCirc 18 ⟨.fault, 0, some .short, false, false, none⟩,
        { handsAt (some 309) with tb := node.tb }].map
      (fun s => after (exec (.gapWaitEnd 400000 2) s) (fun t => ((t.clockLine 2).mode, (t.clockLine 2).pulse.isSome))) =
    [some (.inStep, false), some (.advance, true), some (.advance, true), some (.hold, false), some (.unknownWait, false),
      some (.suspended, false), some (.noTime, false)] := by decide +kernel

/-- R122, R124: the step boundary of index 620 finds the gap passed, still to pass, and a gap wait running. -/
theorem test_step_boundary :
    [(⟨.inStep, none, none, none, none, none⟩ : ClockLine), ⟨.inStep, none, none, none, some 0, none⟩,
        ⟨.advance, none, none, some 5000, some 0, some 0⟩].map
      (fun v => after (exec (.localTick false) (beforeStep (some 309) v))
        (fun t => ((t.clockLine 2).pulse.map (fun p => (p.start, p.due, p.polarity)), (t.clockLine 2).gapEnd))) =
    [some (some (1000, 601000, .a), none), some (none, some 400000), some (none, some 5000)] := by decide +kernel

theorem witness_ClockLineEvaluated :
    (handsAt (some 309)).held = false ∧ ((handsAt (some 309)).clockLine 2).gapEnd = some 400000 ∧
      400000 ≤ (handsAt (some 309)).now + 400000 ∧ ((handsAt (some 309)).clockLine 2).pulse = none ∧
      ((handsAt (some 309)).clockCfg 2).type ≠ .off ∧ (handsAt (some 309)).tb.quality ≠ .invalid ∧
      [310, 309, 431, 430].map (distance .minute 18600000) = [0, 1, 599, 600] ∧
      ((beforeStep none (.reset .minute)).held = false ∧ (beforeStep none (.reset .minute)).tb.quality ≠ .invalid ∧
        (beforeStep none (.reset .minute)).tb.ms < 86400000 ∧ ¬ (beforeStep none (.reset .minute)).tb.slewCount ≥ 49 ∧
        (beforeStep none (.reset .minute)).tb.ms / 30000 < ((beforeStep none (.reset .minute)).tb.ms + 1) / 30000 ∧
        ((beforeStep none (.reset .minute)).tb.ms + 1) / 30000 % 2 = 0 ∧ ((beforeStep none (.reset .minute)).clockCfg 2).type = .minute) := by
  decide +kernel

/-- A step out of INVALID, and one by the epoch, that are applied before the next local millisecond. -/
theorem witness_ClockLineEvaluated_step :
    (node.canHear .up ∧ (handsAt (some 309)).canHear .up) ∧ toAll.port = .up ∧
      timeFields (timePayload 400 18600000 0 18) = some ⟨400, 18600000, 0, 18⟩ ∧
      ((handsAt (some 309)).arrived 0 toAll).tb.phase + (999 : Word32).toNat < 1000 ∧
      (handsAt (some 309)).tb.epoch ≠ some 18 ∧ node.tb.quality = .invalid ∧
      ((handsAt (some 309)).clockLine 2).pulse = none :=
  ⟨⟨node_hears_up, rfl, rfl, rfl⟩, rfl, by decide +kernel, by decide +kernel, by decide, rfl, by decide +kernel⟩

theorem witness_ClockResynced :
    gapWaiting.takesRequest 0 toNode ∧ (gapWaiting.clockCfg 2).type ≠ .off ∧
      (719 : Word16).toNat < (gapWaiting.clockCfg 2).type.dial ∧ (2 : Byte).toNat ≤ 2 ∧
      (gapWaiting.clockLine 2).pulse = none ∧
      ((pulsing .good).takesRequest 0 toNode ∧ ((pulsing .good).clockLine 2).pulse.isSome = true) :=
  ⟨⟨⟨rfl, rfl, rfl⟩, rfl, by decide +kernel, rfl, by decide +kernel⟩, by decide +kernel, by decide +kernel, by decide,
    by decide +kernel, ⟨⟨rfl, rfl, rfl⟩, rfl, by decide +kernel, rfl, by decide +kernel⟩, by decide +kernel⟩

theorem witness_DwellJudged :
    (scanning 1).held = false ∧ (scanning 1).csv.scan = .dwell 5 0 50000 ∧ 0 + 50000 ≤ (scanning 1).now + 50000 ∧
      ((scanning 1).circ 5).state ≠ .fault ∧
      (((scanning 1).supCfg 5).lo ≤ (40 : Byte).toNat ∧ (200 : Byte).toNat ≤ ((scanning 1).supCfg 5).hi) ∧
      ((39 : Byte).toNat < ((scanning 1).supCfg 5).lo ∧ ((scanning 1).circ 5).count + 1 < ((scanning 1).supCfg 5).n) ∧
      (((scanning 2).supCfg 5).hi < (201 : Byte).toNat ∧ ((scanning 2).supCfg 5).n ≤ ((scanning 2).circ 5).count + 1) := by
  decide +kernel

/-- B5 in FAULT with h 10: the ends of the inner band 50 to 190, and the outer margins beside it. -/
theorem witness_DwellJudged_fault :
    (((scanning 0).setCirc 5 ⟨.fault, 0, some .openLine, true, false, some 255⟩).circ 5).state = .fault ∧
      ((scanning 0).setCirc 5 ⟨.fault, 0, some .openLine, true, false, some 255⟩).csv.scan = .dwell 5 0 50000 ∧
      ((scanning 0).supCfg 5).autoRecover = true ∧
      (((scanning 0).supCfg 5).lo + ((scanning 0).supCfg 5).h ≤ (50 : Byte).toNat ∧
        (190 : Byte).toNat + ((scanning 0).supCfg 5).h ≤ ((scanning 0).supCfg 5).hi) ∧
      (((scanning 0).supCfg 5).lo ≤ (49 : Byte).toNat ∧
        ¬ ((scanning 0).supCfg 5).lo + ((scanning 0).supCfg 5).h ≤ (49 : Byte).toNat) ∧
      (39 : Byte).toNat < ((scanning 0).supCfg 5).lo ∧ ((scanning 0).supCfg 5).hi < (201 : Byte).toNat := by decide +kernel

theorem test_dwellEnd_recovers : after (exec (.dwellEnd 50000 190)
      ((scanning 0).setCirc 5 ⟨.fault, 0, some .openLine, true, false, some 255⟩))
    (fun t => (t.circ 5, t.counter .circRecoveries)) = some ({ CircRecord.fresh with last := some 190 }, 1) := by
  decide +kernel

/-- B5 in FAULT, recoverable or not. -/
def faulted (recoverable : Bool) : State := (scanning 0).setCirc 5 ⟨.fault, 0, some .openLine, true, recoverable, some 255⟩

theorem witness_CircuitRecovered :
    ((faulted true).takesRequest 0 toNode ∧ ((faulted true).circ 5).state = .fault ∧
      ((faulted true).circ 5).recoverable = true) ∧
    ((faulted false).takesRequest 0 toNode ∧ ((faulted false).circ 5).recoverable = false) ∧
    (node.takesRequest 0 toNode ∧ (node.circ 31).state ≠ .fault) :=
  ⟨⟨⟨⟨rfl, rfl, rfl⟩, rfl, by decide +kernel, rfl, by decide +kernel⟩, by decide +kernel, by decide +kernel⟩,
    ⟨⟨⟨rfl, rfl, rfl⟩, rfl, by decide +kernel, rfl, by decide +kernel⟩, by decide +kernel⟩, node_takesRequest,
    by decide +kernel⟩

/-- The factory bands at their ends. -/
theorem witness_FireChecked :
    node.held = false ∧ node.fdc.nextCheck ≤ node.now + 100000 ∧
      node.mu.node.fireClass 160 = .active ∧ node.mu.node.fireClass 240 = .active ∧ node.mu.node.fireClass 10 = .inactive ∧
      node.mu.node.fireClass 90 = .inactive ∧ node.mu.node.fireClass 9 = .trouble ∧ node.mu.node.fireClass 91 = .trouble ∧
      node.mu.node.fireClass 159 = .trouble ∧ node.mu.node.fireClass 241 = .trouble ∧ node.fdc.fire = .quiet ∧
      2 ≤ node.mu.node.activateDelay ∧ (node.setFire .pending 1).fdc.fire = .pending ∧
      (node.setFire .pending 1).fdc.count + 1 < node.mu.node.activateDelay ∧
      node.mu.node.activateDelay ≤ (node.setFire .pending 2).fdc.count + 1 ∧ node.mu.node.evacOnFire = true := by
  decide +kernel

theorem witness_FireChecked_clears :
    (node.setFire .active 0).fdc.fire = .active ∧ 2 ≤ (node.setFire .active 0).mu.node.clearDelay ∧
      (node.setFire .clearing 28).fdc.count + 1 < node.mu.node.clearDelay ∧
      node.mu.node.clearDelay ≤ (node.setFire .clearing 29).fdc.count + 1 ∧
      (node.setFire .clearing 29).fdc.nextCheck ≤ node.now + 100000 ∧
      { NodeCfg.factory with activateDelay := 1, clearDelay := 1 }.good = true := by decide +kernel

/-- R158: the thirtieth inactive reading in a row ends the alarm. -/
theorem test_fireCheck_clear : after (exec (.fireCheck 100000 50)
      { (node.setFire .clearing 29).setOut 9 (showing [⟨.fdc, 0, .tone .factory, none⟩] .none (some .fdc) .silent) with
        fdc := { (node.setFire .clearing 29).fdc with fireSet := some [9] } })
    (fun t => (t.fdc.fire, (t.out 9).claims, t.fdc.fireSet)) = some (.quiet, [], none) := by decide +kernel

/-- The bytes of a START after its command byte, for drill 500, program 3 and a start one day ahead of `drilling`. -/
def startRest : List Byte := enc16 500 ++ [3] ++ enc16 411 ++ enc32 37799000 ++ List.replicate 8 0

theorem drilling_hears (p : DrillPhase) (d : Option Nat) : (drilling p d).canHear .up := ⟨rfl, rfl, rfl⟩

theorem witness_DrillFramesTaken :
    (drilling .hold (some 9)).canHear .up ∧ toAll.port = .up ∧
      ((drilling .hold (some 9)).arrived 0 toAll).selected toAll = true ∧ startRest.length = 17 ∧
      ((nodeAt .synced 410 37799000 0).canHear .up ∧ word16At startRest 0 ≠ 0 ∧ (byteAt startRest 2).toNat = (3 : Fin 4).val ∧
        (word32At startRest 5).toNat < 86400000 ∧ (nodeAt .synced 410 37799000 0).fdc.drill = none ∧
        (nodeAt .synced 410 37799000 0).fireMute = false ∧ (nodeAt .synced 410 37799000 0).tb.quality ≠ .invalid ∧
        0 < campusDiff 410 37799000 (word16At startRest 3) (word32At startRest 5).toNat ∧
        campusDiff 410 37799000 (word16At startRest 3) (word32At startRest 5).toNat ≤ 86400000) ∧
      (∃ d, (drilling .hold (some 9)).fdc.drill = some d ∧ d.id = word16At startRest 0 ∧ d.phase = .hold ∧
        0 < d.prog.clearTime) ∧
      badDrillCommand [0] = true ∧ badDrillCommand [4] = true ∧ badDrillCommand [] = true :=
  ⟨drilling_hears .., rfl, by decide +kernel, by decide +kernel,
    ⟨⟨rfl, rfl, rfl⟩, by decide +kernel, by decide +kernel, by decide +kernel, rfl, rfl, by decide +kernel, by decide +kernel,
      by decide +kernel⟩,
    ⟨_, rfl, by decide +kernel, rfl, by decide⟩, by decide, by decide, by decide⟩

theorem witness_DrillPhasesEnd :
    (∃ d, (drilling .preAlert (some 9)).fdc.drill = some d ∧ d.deadline = some 9 ∧ d.phase = .preAlert) ∧
      (∃ d r, (drilling .evacuate (some 9)).fdc.drill = some d ∧ d.deadline = some 9 ∧ d.phase = .evacuate ∧
        (drilling .evacuate (some 9)).fdc.roll = some r ∧ sweepsMissing d.prog.sweepMask r.clear ≠ 0 ∧
        d.prog.holdLimit ≠ 0) ∧
      (∃ d, (drilling .hold (some 9)).fdc.drill = some d ∧ d.deadline = some 9 ∧ d.phase = .hold ∧ 0 < d.prog.clearTime) ∧
      (∃ d, (drilling .allClear (some 9)).fdc.drill = some d ∧ d.deadline = some 9 ∧ d.phase = .allClear) ∧
      9 ≤ (drilling .hold (some 9)).now + 9 :=
  ⟨⟨_, rfl, rfl, rfl⟩, ⟨_, _, rfl, rfl, rfl, rfl, by decide +kernel, by decide⟩, ⟨_, rfl, rfl, rfl, by decide⟩,
    ⟨_, rfl, rfl, rfl⟩, by decide +kernel⟩

/-- The armed drill, due at 10:30:00, 1 ms before a second, with a prealert or without. -/
def armedAt (ms : Nat) (pre : Bool) : State :=
  { drilling .armed none with
    tb := (nodeAt .synced 410 ms 0).tb,
    fdc := { (drilling .armed none).fdc with drill := (drilling .armed none).fdc.drill.map (fun d =>
      if pre then d else { d with prog := { d.prog with preTime := 0 } }) } }

/-- R163, R165: the second before the start leaves the drill armed; the start enters PRE_ALERT, or EVACUATE at once. -/
theorem test_armed_drill :
    [armedAt 37798999 true, armedAt 37799999 true, armedAt 37799999 false].map
      (fun s => after (exec (.localTick false) s) (fun t => (drillCode t.fdc.drill, t.fdc.drill.bind (·.deadline),
        (t.out 9).claims.map (·.cls), t.fdc.roll.map (·.isOpen)))) =
    [some (1, none, [], none), some (2, some 30001000, [1], none), some (3, some 180001000, [0], some true)] := by
  decide +kernel

theorem witness_DrillPhasesEnd_armed :
    (∀ b, (armedAt 37799999 b).held = false ∧ (armedAt 37799999 b).tb.quality ≠ .invalid ∧
      ∃ d, (armedAt 37799999 b).fdc.drill = some d ∧ d.phase = .armed) ∧
      37799999 < 86400000 ∧ 37799999 / 1000 < (37799999 + 1) / 1000 ∧ 0 ≤ campusDiff 410 37800000 410 37800000 ∧
      campusDiff 410 37800000 410 37799000 < 0 ∧
      ((armedAt 37799000 true).canHear .up ∧ toAll.port = .up ∧
        timeFields (timePayload 410 37800000 0 18) = some ⟨410, 37800000, 0, 18⟩ ∧
        ((armedAt 37799000 true).arrived 0 toAll).tb.phase + (999 : Word32).toNat < 1000 ∧
        (armedAt 37799000 true).tb.epoch ≠ some 18) :=
  ⟨fun b => by cases b <;> exact ⟨rfl, nofun, _, rfl, rfl⟩, by decide, by decide, by decide, by decide,
    ⟨rfl, rfl, rfl⟩, rfl, by decide +kernel, by decide +kernel, by decide⟩

theorem witness_DrillKeysTaken :
    (drilling .evacuate none).held = false ∧ (drilling .evacuate none).fdc.holdKey.readyAt ≤ (drilling .evacuate none).now + 50000 ∧
      (∃ d, (drilling .evacuate none).fdc.drill = some d ∧ d.phase ≠ .armed ∧ d.phase ≠ .hold ∧
        d.runStart + (d.progress + 1) * 10000000 ≤ (drilling .evacuate none).now + 10000000) ∧
      (∃ r, (drilling .evacuate none).fdc.roll = some r ∧ r.isOpen = true ∧ r.clear[(7 : Fin 8)] = none) ∧
      (drilling .evacuate none).fdc.sweeps[(7 : Fin 8)].readyAt ≤ (drilling .evacuate none).now + 50000 ∧
      (drilling .evacuate none).mu.node.enables.getLsbD 6 = true :=
  ⟨rfl, by decide +kernel, ⟨_, rfl, by decide, by decide, by decide +kernel⟩, ⟨_, rfl, rfl, by decide +kernel⟩,
    by decide +kernel, by decide⟩

theorem witness_RequestsRead :
    node.takesRequest 0 toNode ∧ spaceOf 11 = some .counters ∧ (255 : Byte) ≠ 0 ∧ (70 : Word16).toNat < Space.counters.records ∧
      (1 : Byte).getLsbD 0 = true ∧ (node.arrived 0 toNode).consumes toNode = true ∧ spaceOf 14 = some .circstate ∧
      spaceOf 15 = none :=
  ⟨node_takesRequest, by decide +kernel, by decide, by decide, by decide, by decide +kernel, by decide, by decide⟩

theorem witness_AddressSet :
    (node.takesRequest 0 toPlace ∧ toPlace.mode = 1 ∧ 1 ≤ (1000 : Word16).toNat ∧ (1000 : Word16).toNat ≤ 1000 ∧
      node.mu.save = none) ∧
    (node.takesRequest 0 toNode ∧ toNode.mode ≠ 1) ∧
    ({ node with mu := State.reset.mu }.held = false ∧ { node with mu := State.reset.mu }.mu.unassignedEnd = some 5000000 ∧
      { node with mu := State.reset.mu }.line.up.link = .active ∧
      { node with mu := State.reset.mu }.mu.node.enables.getLsbD 7 = true) :=
  ⟨⟨node_takesRequest_place, by decide, by decide, by decide, rfl⟩, ⟨node_takesRequest, by decide⟩, rfl, rfl, rfl, by decide⟩

theorem witness_TablesWritten :
    node.takesRequest 0 toNode ∧ node.mu.save = none ∧
      ((255 : Word16).toNat = (255 : Fin 256).val ∧
        decSched (encSched ⟨86399, 1, .bell, 3, 15, ⟨0, 0, 4095⟩, 120⟩) = some ⟨86399, 1, .bell, 3, 15, ⟨0, 0, 4095⟩, 120⟩ ∧
        (encSched ⟨86399, 1, .bell, 3, 15, ⟨0, 0, 4095⟩, 120⟩).length = 14 ∧ node.bs.active = .a ∧
        node.bs.pendingSwap = false) ∧
      decCalendar [1, 0xFF, 0xFF, 8] = some ⟨true, 65535, .noBells⟩ ∧ decPlan 7 = some (.day 7) ∧
      (nodeAt .synced 402 0 0).tb.quality ≠ .invalid ∧
      decWindow [1, 0, 0, 0, 15, 255, 15] = some ⟨true, .bell, 0, 4095, 15⟩ ∧
      ((encTone ⟨true, [⟨5, 0, 15⟩]⟩).length = 42 ∧ decTone (encTone ⟨true, [⟨5, 0, 15⟩]⟩) = some ⟨true, [⟨5, 0, 15⟩]⟩) ∧
      decDrill [15, 1, 44, 15, 7, 8, 14, 16, 255, 15, 120] = some ⟨15, 300, 15, 1800, 3600, 255, 15, 120⟩ :=
  ⟨node_takesRequest, rfl, ⟨by decide, by decide +kernel, by decide +kernel, rfl, rfl⟩, by decide +kernel, by decide +kernel,
    by decide, by decide +kernel, ⟨by decide +kernel, by decide +kernel⟩, by decide +kernel⟩

theorem witness_SettingsWritten :
    node.takesRequest 0 toNode ∧ node.mu.save = none ∧
      decAttr 23 [15, 7, 15, 15, 7, 255, 255] = some ⟨15, 7, 15, 15, true, true, true, 255, 255⟩ ∧
      decClock [2, 1, 7, 208, 0, 100, 120, 0, 1] = some ⟨.half, .same, 2000, 100, 120, 0, 1⟩ ∧
      (ClockType.half ≠ (node.clockCfg 7).type ∧ (node.clockLine 7).pulse = none) ∧
      decSup 31 [1, 250, 0, 255, 1, 63, 3] = some ⟨true, 250, 0, 255, 1, 63, true, true⟩ ∧
      ((scanning 0).takesRequest 0 toNode ∧ ((scanning 0).supCfg 5).enabled = true ∧
        decSup 5 (encSup SupCfg.factory) = some .factory) ∧
      decNode (encNode { NodeCfg.factory with linkDelay := 50000 }) = some { NodeCfg.factory with linkDelay := 50000 } ∧
      (encNode NodeCfg.factory).length = 17 :=
  ⟨node_takesRequest, rfl, by decide +kernel, by decide +kernel, by decide +kernel, by decide +kernel,
    ⟨⟨⟨rfl, rfl, rfl⟩, rfl, by decide +kernel, rfl, by decide +kernel⟩, by decide +kernel, by decide +kernel⟩,
    by decide +kernel, by decide +kernel⟩

/-- The node with a save in flight. -/
def saving : State := { node with mu := { node.mu with save := some ⟨Image.factory, 10⟩ } }

theorem saving_takesRequest : saving.takesRequest 0 toNode :=
  ⟨⟨rfl, rfl, rfl⟩, rfl, by decide +kernel, rfl, by decide +kernel⟩

theorem witness_ImageSaved :
    (node.takesRequest 0 toNode ∧ node.mu.save = none) ∧ (saving.takesRequest 0 toNode ∧ saving.mu.save.isSome = true) ∧
      (saving.held = false ∧ saving.mu.save = some ⟨Image.factory, 10⟩ ∧ saving.line.up.normal.length < 32) :=
  ⟨⟨node_takesRequest, rfl⟩, ⟨saving_takesRequest, rfl⟩, rfl, rfl, by decide⟩

/-- The node with reset pending set. -/
def leaving : State := { node with mu := { node.mu with resetPending := true } }

theorem witness_LineResetAsked :
    (node.takesRequest 0 toNode ∧ node.mu.save = none) ∧ (saving.takesRequest 0 toNode ∧ saving.mu.save.isSome = true) ∧
      (leaving.canHear .up ∧ toNode.port = .up ∧ (leaving.arrived 0 toNode).selected toNode = true ∧
        leaving.mu.resetPending = true ∧ (leaving.arrived 0 toNode).hasRoom .upNormal = true) :=
  ⟨⟨node_takesRequest, rfl⟩, ⟨saving_takesRequest, rfl⟩, ⟨rfl, rfl, rfl⟩, rfl, by decide +kernel, rfl, by decide +kernel⟩

theorem witness_LineResetAsked_loss :
    node.canHear .up ∧ toNode.port = .up ∧ (node.arrived 0 toNode).selected toNode = true ∧ node.mu.resetPending = false ∧
      node.mu.save = none ∧ (∀ i ∈ node.line.up.express ++ node.line.up.normal, i.origin ≠ .resetReply) ∧
      (node.arrived 0 toNode).line.hop = node.line.hop :=
  ⟨⟨rfl, rfl, rfl⟩, rfl, by decide +kernel, rfl, rfl, by decide, by decide +kernel⟩

theorem witness_RequestsRefused :
    node.takesRequest 0 toNode ∧ holdsRequest (12 :: List.replicate 239 0) = false ∧
      (List.replicate 239 (0 : Byte)).length ≤ 239 ∧ 11 ≤ (11 : Byte).toNat ∧ (List.replicate 235 (0 : Byte)).length ≤ 235 :=
  ⟨node_takesRequest, by decide +kernel, by decide +kernel, by decide, by decide +kernel⟩

theorem witness_ResetsTaken :
    State.reset.rs.checkOk = true ∧ State.reset.rs.timeWritten = false ∧
      { State.reset.rs with timeWritten := true }.timeWritten = true ∧ State.reset.image = none ∧
      State.reset.mainPower = true ∧ { State.reset with mainPower := false }.mainPower = false ∧
      State.reset.rs.supply = true ∧ { State.reset.rs with supply := false }.supply = false := by decide +kernel

/-- The node with an image. -/
def holding (i : Image) : State := { node with image := some i }

/-- R189: an address of 1000 and factory records pass every check; an address of 1001 and a pattern without a step do not. -/
theorem witness_ResetsTaken_image :
    ({ Image.factory with addr := 1000 }.addr.toNat ≤ 1000 ∧ ¬ { Image.factory with addr := 1001 }.addr.toNat ≤ 1000) ∧
      (recordsPass (fun _ => decTone) encTone Image.factory.tones ∧
        ¬ recordsPass (fun _ => decTone) encTone (Image.factory.tones.set 15 ⟨true, []⟩)) ∧
      after (exec (.fullReset 0 ⟨false, true⟩ 0) (holding { Image.factory with addr := 1000 }))
        (fun t => (t.mu.addr, t.mu.imageResult, t.mu.factoryMask)) = some (1000, .loaded, 0) ∧
      after (exec (.fullReset 0 ⟨false, true⟩ 0) (holding
          { Image.factory with addr := 1001, tones := Image.factory.tones.set 15 ⟨true, []⟩ }))
        (fun t => (t.mu.addr, t.mu.imageResult, t.mu.factoryMask)) = some (0, .someFactory, 0x81) := by
  unfold recordsPass
  decide +kernel

/-- A state before midnight, of a running campus time, that every step leaves legal. -/
def beforeMidnight : State := (nodeAt .synced 65535 86399999 999).withPending [.localTick false]

theorem witness_TimeStaysLegal : beforeMidnight.TimeLegal ∧ ∃ t, step beforeMidnight = .next t :=
  ⟨⟨by decide +kernel, by decide +kernel, by decide +kernel, by decide +kernel, by decide +kernel, by decide +kernel,
    by decide +kernel, by decide +kernel⟩, _, rfl⟩

theorem witness_CapacitiesKept_queues : (fullQueues.withPending [.ping 0 toAll]).queuesBounded ∧
    ∃ t, step (fullQueues.withPending [.ping 0 toAll]) = .next t :=
  ⟨by intro q; cases q <;> decide +kernel, _, rfl⟩

/-- A call with a full FIFO, and every counter at its limit. -/
def brimming : State :=
  { (calling .play (some 9) (List.replicate 8 .silence)).withPending [.audio 0 toAll (audioPayload 3 9)] with
    counters := Vector.replicate 71 65535 }

theorem brimming_call (r : Fin 8) :
    brimming.call r = if r = 0 then some (callOf .play (some 9) (List.replicate 8 .silence)) else none := by
  revert r
  decide +kernel

theorem witness_CapacitiesKept : brimming.countersBounded ∧ brimming.callsLegal ∧ ∃ t, step brimming = .next t := by
  refine ⟨?_, ⟨fun r c h => ?_, fun r k c d h g _ => ?_⟩, _, rfl⟩
  · intro c
    have h : ∀ i : Fin 71, brimming.counters[i] ≤ 65535 := by decide +kernel
    exact h c.index
  · rw [brimming_call] at h
    split at h
    · cases h; decide
    · cases h
  · rw [brimming_call] at h g
    split at h <;> split at g <;> simp_all

/-- B9 rung, and a command that ends its claim. -/
def endingBell : State := (ringing .factory ⟨0, true, 0⟩).withPending [.bellClaimExpiry 9000000 9]

theorem witness_WinnersStayChosen :
    endingBell.claimsDistinct ∧ endingBell.winnersChosen ∧ endingBell.silencesKept ∧ ∃ t, step endingBell = .next t :=
  ⟨by unfold State.claimsDistinct; decide +kernel, by unfold State.winnersChosen; decide +kernel,
    by unfold State.silencesKept; decide +kernel, _, rfl⟩

end Sys2Proof.Tests
end

/-! PROOFS. Campus time (Chapter 1): the estimate of an accepted TIME frame (R9) and the slew (R13). -/

namespace Sys2Proof.Machine

/-! ## Notices and copies (R32, R184) -/

/-- R184: a notice of an enabled class joins UP normal where there is room. -/
theorem raise_noticed {s : State} {c : NoticeClass} (he : c.enabled s.mu.node.enables = true)
    (hr : s.hasRoom .upNormal = true) (k : Nat) (a : List Byte) : s.noticed (s.raise c k a) c k a := by
  obtain ⟨hd, -⟩ | ⟨-, -, h⟩ | ⟨-, hf, -⟩ := raise_cases s c k a
  · simp [he] at hd
  · simp [State.noticed, h, State.setQueue]
  · simp [hr] at hf

/-- R184: a notice leaves the DOWN port as it is. -/
@[simp] theorem raise_line_down (s : State) (c : NoticeClass) (k : Nat) (a : List Byte) :
    (s.raise c k a).line.down = s.line.down := by
  obtain ⟨-, h⟩ | ⟨-, -, h⟩ | ⟨-, -, h⟩ := raise_cases s c k a
  · rw [h]
  · simp [h, State.setQueue]
  · simp [h]

/-- R32: a copy for DOWN express leaves the UP port as it is. -/
@[simp] theorem copyDown_express_line_up (s : State) (f : Frame) (w : Word32) (g : Origin) :
    (s.copyDown .downExpress f w g).line.up = s.line.up := by
  unfold State.copyDown State.joinDown
  split
  · obtain ⟨-, h⟩ | ⟨-, h⟩ := join_cases s .downExpress ⟨f, some w, g⟩
    · simp [h, State.setQueue]
    · simp [h]
  · rfl

/-- R32, R37: a copy joins DOWN express, with its stamp, where DOWN is ACTIVE and the queue has room. -/
theorem copyDown_express_joins {s : State} (hl : s.line.down.link = .active) (hr : s.line.down.express.length < 8)
    (f : Frame) (w : Word32) (g : Origin) :
    (s.copyDown .downExpress f w g).line.down.express = s.line.down.express ++ [⟨f, some w, g⟩] := by
  have hjoin : s.copyDown .downExpress f w g = s.join .downExpress ⟨f, some w, g⟩ := by
    simp [State.copyDown, State.joinDown, hl]
  obtain ⟨-, h⟩ | ⟨hfull, -⟩ := join_cases s .downExpress ⟨f, some w, g⟩
  · simp [hjoin, h, State.setQueue, State.queue]
  · simp only [State.queue, QueueId.capacity] at hfull
    omega

/-! ## The arrival of a TIME frame (R8) -/

/-- R30: of the Timebase the arrival of a frame changes what the passing of local time does. -/
@[simp] theorem arrived_tb (s : State) (dt : Nat) (h : Hdr) : (s.arrived dt h).tb = (s.elapse dt).tb := by
  simp [State.arrived]

/-- R30: a frame received at UP leaves the DOWN port as it is. -/
theorem arrived_up_line_down {h : Hdr} (hp : h.port = .up) (s : State) (dt : Nat) :
    (s.arrived dt h).line.down = s.line.down := by
  simp only [State.arrived, State.learnAt, hp, if_true, State.learnHop]
  split <;> simp [State.endReception, State.setPort]

/-- R195: a TIME payload that is accepted has 11 bytes. -/
theorem length_of_timeFields {payload : List Byte} {f : TimeFields} (h : timeFields payload = some f) :
    payload.length = 11 := by
  unfold timeFields at h
  dsimp only at h
  split at h
  · next hp => exact hp.1
  · cases h

/-- R8, R32: an accepted TIME frame is taken in the state of its arrival, and its copy follows with the L held there. -/
theorem exec_time_accepted {s : State} {h : Hdr} {payload : List Byte} {f : TimeFields} (hc : s.canHear .up)
    (hp : h.port = .up) (hf : timeFields payload = some f) (dt : Nat) (lag : Word32) (first : Bool) :
    exec (.time dt h payload lag first) s =
      .next (((s.arrived dt h).acceptTime f lag.toNat first).copyDown .downExpress (h.frame 0x01 payload)
        (BitVec.ofNat 32 (s.now + dt)) (.relayTime s.tb.linkDelay)) := by
  have hfits : fits payload = true := by simp [fits, length_of_timeFields hf]
  change execTime dt h payload lag first s = _
  rw [execTime, hfits, carried_true, live_running hc.1, State.timeFrame, ← hp, receive_proper (hp ▸ hc)]
  simp [hf, State.localCount]

/-! ## The slew (R11, R13) -/

/-- R11: in SYNCED and HOLDOVER a frame of the stored epoch whose offset lies below the threshold does not step. -/
theorem steps_eq_false {s : State} {f : TimeFields} {e : Int}
    (hq : s.tb.quality = .synced ∨ s.tb.quality = .holdover) (he : s.tb.epoch = some f.epoch)
    (hlt : e.natAbs < s.mu.node.stepThreshold) : s.steps f e = false := by
  obtain hq | hq := hq <;> simp [State.steps, hq, he, hlt]

/-- R11, R13: a frame that does not step slews by its offset. -/
theorem acceptTime_of_not_steps {s : State} {f : TimeFields}
    (h : s.steps f (s.tb.offsetMs (f.estimate s.tb.linkDelay)) = false) (lag : Nat) (first : Bool) :
    s.acceptTime f lag first = s.takeSlew (s.tb.offsetMs (f.estimate s.tb.linkDelay)) := by
  simp [State.acceptTime, h]

/-- R2: of the Timebase a change of quality changes the quality only. -/
@[simp] theorem setQuality_tb (s : State) (q : Quality) : (s.setQuality q).tb = { s.tb with quality := q } := by
  unfold State.setQuality
  split
  · next h => rw [← h]
  · simp

/-- R13: what a slew makes of the Timebase, before any notice. -/
def State.slewed (s : State) (e : Int) : State :=
  { s with tb := { s.tb with slew := e, timeoutEnd := some (s.now + 5000000), quality := .synced } }

/-- R13: from SYNCED a slew is the change of the Timebase alone. -/
theorem takeSlew_of_synced {s : State} (hq : s.tb.quality = .synced) (e : Int) : s.takeSlew e = s.slewed e := by
  simp [State.takeSlew, State.setQuality, State.slewed, hq, Config.timeTimeoutUs]

/-- R13: from HOLDOVER a slew raises the notice QUALITY as well. -/
theorem takeSlew_of_holdover {s : State} {epoch : Byte} (hq : s.tb.quality = .holdover)
    (he : s.tb.epoch = some epoch) (e : Int) :
    s.takeSlew e = (s.slewed e).raise .time 1 ([3, 2] ++ enc16 epoch.toNat) := by
  simp [State.takeSlew, State.setQuality, State.slewed, hq, he, epochCode, Quality.code, enc8, Config.timeTimeoutUs]

/-- R196: a notice shows the D and T that a slew does not move. -/
theorem slewed_noticePayload {s : State} (hq : s.tb.quality ≠ .invalid) (e : Int) (c : NoticeClass) (k : Nat)
    (a : List Byte) : (s.slewed e).noticePayload c k a = s.noticePayload c k a := by
  simp [State.noticePayload, State.slewed, hq]

/-- R13: a slew replaces C, starts the TIME timeout and leaves quality SYNCED. -/
@[simp] theorem takeSlew_tb (s : State) (e : Int) : (s.takeSlew e).tb = (s.slewed e).tb := by
  simp [State.takeSlew, State.slewed, Config.timeTimeoutUs]

/-- R13: a slew leaves the DOWN port as it is. -/
@[simp] theorem takeSlew_line_down (s : State) (e : Int) : (s.takeSlew e).line.down = s.line.down := by
  unfold State.takeSlew State.setQuality
  dsimp only
  split <;> simp

/-- R13: a slew from HOLDOVER raises the notice QUALITY of the change from 3 to 2. -/
theorem takeSlew_noticed_of_holdover {s : State} {epoch : Byte} (hq : s.tb.quality = .holdover)
    (he : s.tb.epoch = some epoch) (hn : s.mu.node.enables.getLsbD 1 = true) (hr : s.hasRoom .upNormal = true)
    (e : Int) : s.noticed (s.takeSlew e) .time 1 ([3, 2] ++ enc16 epoch.toNat) := by
  have hraised := raise_noticed (s := s.slewed e) (c := .time) hn hr 1 ([3, 2] ++ enc16 epoch.toNat)
  rwa [← takeSlew_of_holdover hq he, State.noticed, slewed_noticePayload (by simp [hq])] at hraised

/-- R13: a slew and the copy of its frame change the line, the Timebase and the counters, and no block's state beside. -/
theorem takeSlew_copyDown_keepsBut (s : State) (e : Int) (q : QueueId) (f : Frame) (w : Word32) (g : Origin) :
    s.keepsBut ((s.takeSlew e).copyDown q f w g) [.line, .tb, .counters] := by
  intro p hp
  cases p <;> simp [State.samePart] at hp ⊢

/-! ## The statements -/

/-- Settles O19: on either side of midnight by the branch of the estimate taken, with R9's bound on the sum. -/
theorem estimateFormed : Obligations.EstimateFormed := by
  intro f l hms hdelay hl est
  have hmid : Config.dayUs = 86400000000 := rfl
  have hsum : est < 2 * 86400000000 := by omega
  by_cases h : 86400000000 ≤ est
  · have hest : f.estimate l = (est - 86400000000, f.day + 1) := by
      rw [TimeFields.estimate, hmid, if_pos h]
    exact ⟨fun _ => hest, fun hlt => absurd h (by omega), by rw [hest]; show est - _ < _; omega⟩
  · have hest : f.estimate l = (est, f.day) := by
      rw [TimeFields.estimate, hmid, if_neg h]
    exact ⟨fun hle => absurd hle h, fun _ => hest, by rw [hest]; show est < _; omega⟩

/-- Settles O20: the frame slews in the state of its arrival, and each conclusion is read off the slew behind its copy. -/
theorem timeSlewed : Obligations.TimeSlewed := by
  intro s dt h payload lag first f hc hp hf v e hq hepoch hlt
  have hL : v.tb.linkDelay = s.tb.linkDelay := by simp [v]
  have hvq : v.tb.quality = s.tb.quality := by simp [v]
  have hve : v.tb.epoch = some f.epoch := by simp [v, hepoch]
  have hmu : v.mu = s.mu := by simp [v]
  have hdown : v.line.down = s.line.down := arrived_up_line_down hp s dt
  have hslew : v.acceptTime f lag.toNat first = v.takeSlew e := by
    have hsteps : v.steps f e = false := steps_eq_false (hvq ▸ hq) hve (hmu ▸ hlt)
    rw [acceptTime_of_not_steps (by rw [hL]; exact hsteps), hL]
  refine ⟨_, exec_time_accepted hc hp hf dt lag first, ?_⟩
  rw [hslew]
  refine ⟨by simp [v, State.slewed], fun hs => ?_, fun hh hn hr => ?_, fun hl hroom => ?_, takeSlew_copyDown_keepsBut _ _ _ _ _ _⟩
  · rw [copyDown_express_line_up, takeSlew_of_synced (hvq ▸ hs), State.slewed]
  · rw [State.noticed, copyDown_express_line_up]
    exact takeSlew_noticed_of_holdover (hvq ▸ hh) hve (hmu ▸ hn) hr e
  · rw [copyDown_express_joins (by simpa [hdown] using hl) (by simpa [hdown] using hroom), takeSlew_line_down, hdown]

end Sys2Proof.Machine

/-! PROOFS. The campus line (Chapter 2): upstream frames, the answer to an ECHO_REQ (R34, R36), and frames of unknown kind
(R35). -/

namespace Sys2Proof.Machine

/-! ## Joining a queue (R37) -/

/-- R37: below its capacity a queue takes the frame at its tail. -/
theorem join_of_room {s : State} {q : QueueId} (h : (s.queue q).length < q.capacity) (i : QItem) :
    s.join q i = s.setQueue q (s.queue q ++ [i]) := by
  simp [State.join, State.hasRoom, h]

/-- R37: a full queue drops the frame, which is counted. -/
theorem join_of_full {s : State} {q : QueueId} (h : q.capacity ≤ (s.queue q).length) (i : QItem) :
    s.join q i = s.count q.fullCounter := by
  simp [State.join, State.hasRoom, Nat.not_lt.mpr h]

/-- R37: a frame for DOWN joins its queue while DOWN is ACTIVE. -/
theorem joinDown_of_active {s : State} (h : s.line.down.link = .active) (q : QueueId) (i : QItem) :
    s.joinDown q i = s.join q i := by
  simp [State.joinDown, h]

/-- R37: while DOWN is not ACTIVE a frame for it is neither queued nor counted. -/
theorem joinDown_of_not_active {s : State} (h : s.line.down.link ≠ .active) (q : QueueId) (i : QItem) :
    s.joinDown q i = s := by
  simp [State.joinDown, h]

/-- R34, R37: a frame relayed to UP normal, with the stamp of its receipt. -/
theorem relayUp_of_room {s : State} (hl : s.line.up.link = .active) (hr : s.line.up.normal.length < 32) (f : Frame) :
    s.relayUp f = s.setQueue .upNormal (s.line.up.normal ++ [⟨f, some s.localCount, .relayUp⟩]) := by
  rw [State.relayUp, if_pos hl]
  exact join_of_room (q := .upNormal) hr _

/-- R37: at a full UP normal a relayed frame is counted UN_FULL. -/
theorem relayUp_of_full {s : State} (hl : s.line.up.link = .active) (hf : 32 ≤ s.line.up.normal.length) (f : Frame) :
    s.relayUp f = s.count .unFull := by
  rw [State.relayUp, if_pos hl]
  exact join_of_full (q := .upNormal) hf _

/-- R34, R37: while UP is not ACTIVE a relayed frame is counted UP_NO_PORT. -/
theorem relayUp_of_not_active {s : State} (h : s.line.up.link ≠ .active) (f : Frame) :
    s.relayUp f = s.count .upNoPort := by
  rw [State.relayUp, if_neg h]

/-! ## The arrival of a frame (R25, R30) -/

/-- R39: the receipt stamp of a frame is the local time of its arrival. -/
@[simp] theorem arrived_localCount (s : State) (dt : Nat) (h : Hdr) :
    (s.arrived dt h).localCount = BitVec.ofNat 32 (s.now + dt) := by
  simp [State.localCount]

@[simp] theorem localCount_count (s : State) (c : Counter) : (s.count c).localCount = s.localCount := rfl

/-- R30: a frame received at DOWN teaches nothing. -/
theorem arrived_down {h : Hdr} (hp : h.port = .down) (s : State) (dt : Nat) :
    s.arrived dt h = (s.elapse dt).endReception .down := by
  simp [State.arrived, State.learnAt, hp]

/-- R25: a frame received at DOWN ends the reception there and changes nothing else of the line. -/
theorem arrived_down_line {h : Hdr} (hp : h.port = .down) (s : State) (dt : Nat) :
    (s.arrived dt h).line = { s.line with down := { s.line.down with rx := none } } := by
  simp [arrived_down hp, State.endReception, State.setPort, State.port]

/-- R184: a notice leaves the hop position as it is. -/
@[simp] theorem raise_hop (s : State) (c : NoticeClass) (k : Nat) (a : List Byte) :
    (s.raise c k a).line.hop = s.line.hop := by
  obtain ⟨-, h⟩ | ⟨-, -, h⟩ | ⟨-, -, h⟩ := raise_cases s c k a
  · rw [h]
  · simp [h, State.setQueue]
  · simp [h]

/-- R30: a frame received at UP teaches its Hops plus 1. -/
theorem arrived_up_hop {h : Hdr} (hp : h.port = .up) (s : State) (dt : Nat) :
    (s.arrived dt h).line.hop = some (nextHop h.hops) := by
  rw [State.arrived, State.learnAt, if_pos hp, State.learnHop]
  split
  · assumption
  · simp

/-! ## What becomes of the frame (R34, R35) -/

/-- R34: an upstream frame received at DOWN is relayed in the state of its arrival. -/
theorem live_upstream {s : State} {h : Hdr} (hc : s.canHear .down) (hp : h.port = .down) (kind : Byte)
    (payload : List Byte) (dt : Nat) :
    live dt (State.upstream kind h payload) s = (s.arrived dt h).relayUp (h.frame kind payload) := by
  rw [live_running hc.1, State.upstream, ← hp, receive_proper (hp ▸ hc)]

/-- R34: a MGMT_RPL received at DOWN is relayed. -/
theorem exec_mgmtRpl_down {s : State} {h : Hdr} {payload : List Byte} (hc : s.canHear .down) (hp : h.port = .down)
    (hlen : payload.length ≤ 240) (dt : Nat) :
    exec (.mgmtRpl dt h payload) s = .next ((s.arrived dt h).relayUp (h.frame 0x41 payload)) := by
  have hfits : fits payload = true := by simp [fits, hlen]
  change execMgmtRpl dt h payload s = _
  rw [execMgmtRpl, hfits, carried_true, live_upstream hc hp]

/-- R34: a NOTICE received at DOWN is relayed. -/
theorem exec_notice_down {s : State} {h : Hdr} {payload : List Byte} (hc : s.canHear .down) (hp : h.port = .down)
    (hlen : payload.length ≤ 240) (dt : Nat) :
    exec (.notice dt h payload) s = .next ((s.arrived dt h).relayUp (h.frame 0x42 payload)) := by
  have hfits : fits payload = true := by simp [fits, hlen]
  change execNotice dt h payload s = _
  rw [execNotice, hfits, carried_true, live_upstream hc hp]

/-- R34, R36: an ECHO_REQ received at DOWN, which can hear and so is ACTIVE, is answered on DOWN express. -/
theorem exec_echoReq_down {s : State} {h : Hdr} {payload : List Byte} (hc : s.canHear .down) (hp : h.port = .down)
    (hlen : payload.length ≤ 240) (dt : Nat) :
    exec (.echoReq dt h payload) s = .next ((s.arrived dt h).join .downExpress
      ⟨echoReplyFrame h.tag, some (BitVec.ofNat 32 (s.now + dt)), .echoRpl⟩) := by
  have hfits : fits payload = true := by simp [fits, hlen]
  have hactive : (s.arrived dt h).line.down.link = .active := by
    rw [arrived_down_line hp]
    exact hc.2.1
  change execEchoReq dt h payload s = _
  rw [execEchoReq, hfits, carried_true, live_running hc.1, State.echoRequested, ← hp, receive_proper (hp ▸ hc),
    joinDown_of_active hactive, arrived_localCount]

/-- R35: a frame of unknown kind is received, counted and passed on, and no block acts on it. -/
theorem exec_unknownKind {s : State} {h : Hdr} {kind : Byte} {payload : List Byte} (hc : s.canHear h.port)
    (hlen : payload.length ≤ 240) (hk : kind ∉ knownKinds) (dt : Nat) :
    exec (.unknownKind dt h kind payload) s = .next ((s.elapse dt).unknownFrame h kind payload) := by
  have hcarried : (fits payload && decide (kind ∉ knownKinds)) = true := by simp [fits, hlen, hk]
  change execUnknownKind dt h kind payload s = _
  rw [execUnknownKind, hcarried, carried_true, live_running hc.1]

/-- R35: from UP a frame of unknown kind goes to DOWN normal, with the stamp of its receipt. -/
theorem unknownFrame_up {s : State} {h : Hdr} (hc : s.canHear h.port) (hp : h.port = .up) (dt : Nat) (kind : Byte)
    (payload : List Byte) :
    (s.elapse dt).unknownFrame h kind payload = ((s.arrived dt h).count .unknownKind).joinDown .downNormal
      ⟨h.frame kind payload, some (BitVec.ofNat 32 (s.now + dt)), .relayDown⟩ := by
  rw [← arrived_localCount s dt h, ← localCount_count _ .unknownKind, State.unknownFrame, hears_elapse hc dt, if_pos rfl]
  simp only [hp, State.arrived, State.copyDown]

/-- R35: from DOWN a frame of unknown kind is relayed to UP normal. -/
theorem unknownFrame_down {s : State} {h : Hdr} (hc : s.canHear h.port) (hp : h.port = .down) (dt : Nat) (kind : Byte)
    (payload : List Byte) :
    (s.elapse dt).unknownFrame h kind payload =
      ((s.arrived dt h).count .unknownKind).relayUp (h.frame kind payload) := by
  rw [State.unknownFrame, hears_elapse hc dt, if_pos rfl]
  simp only [hp, State.arrived]

/-! ## The statements -/

/-- Settles O11: MGMT_RPL and NOTICE are one relay to UP normal and ECHO_REQ one join of DOWN express, and each clause is a
case of R37. -/
theorem upstreamTaken : Obligations.UpstreamTaken := by
  intro s dt h payload hc hp hlen
  have hline := arrived_down_line hp s dt
  have hup : (s.arrived dt h).line.up = s.line.up := by rw [hline]
  have hexpress : (s.arrived dt h).queue .downExpress = s.line.down.express := by rw [State.queue, hline]
  rw [exec_mgmtRpl_down hc hp hlen, exec_notice_down hc hp hlen, exec_echoReq_down hc hp hlen, ← hup, ← hexpress,
    ← arrived_localCount s dt h]
  refine ⟨fun hl hr => ?_, fun hl hf => ?_, fun hl => ?_, fun hr => ?_, fun hf => ?_⟩
  · rw [relayUp_of_room hl hr, relayUp_of_room hl hr]
    exact ⟨rfl, rfl, fun _ _ _ => rfl⟩
  · rw [relayUp_of_full hl hf, relayUp_of_full hl hf]
    exact ⟨rfl, rfl⟩
  · rw [relayUp_of_not_active hl, relayUp_of_not_active hl]
    exact ⟨rfl, rfl⟩
  · rw [join_of_room (q := .downExpress) hr, echoReplyFrame]
  · rw [join_of_full (q := .downExpress) hf, QueueId.fullCounter]

/-- Settles O12: in each direction the counted frame is one join, and each clause is a case of R37. -/
theorem unknownForwarded : Obligations.UnknownForwarded := by
  intro s dt h kind payload hc hlen hk v stamp
  have hexec := exec_unknownKind hc hlen hk dt
  constructor
  · intro hp
    have hdown : v.line.down = s.line.down := by simp [v, arrived_up_line_down hp]
    rw [hexec, unknownFrame_up hc hp, ← hdown]
    refine ⟨?_, fun hl hr => ?_, fun hl hf => ?_, fun hl => ?_, fun _ => rfl⟩
    · simp [v, arrived_up_hop hp, nextHop]
    · rw [joinDown_of_active hl, join_of_room (q := .downNormal) hr, State.queue]
    · rw [joinDown_of_active hl, join_of_full (q := .downNormal) hf, QueueId.fullCounter]
    · rw [joinDown_of_not_active hl]
  · intro hp
    have hup : v.line.up = s.line.up := by simp [v, arrived_down_line hp]
    have hstamp : v.localCount = BitVec.ofNat 32 (s.now + dt) := by simp [v]
    rw [hexec, unknownFrame_down hc hp, ← hup]
    refine ⟨fun hl hr => ?_, fun hl hf => ?_, fun hl => ?_, fun _ => rfl⟩
    · rw [relayUp_of_room hl hr, hstamp]
    · rw [relayUp_of_full hl hf]
    · rw [relayUp_of_not_active hl]

end Sys2Proof.Machine

/-! PROOFS. The bell schedule (Chapter 4): the order check of a bank and its activation (R60). -/

namespace Sys2Proof.Machine

/-! ## Frames -/

/-- A state that keeps all but some parts can be followed by one that changes only parts among those. -/
theorem keepsBut_trans {s u t : State} {parts fewer : List Part} (hsu : s.keepsBut u parts) (hut : u.keepsBut t fewer)
    (hsub : fewer ⊆ parts) : s.keepsBut t parts := by
  intro p hp
  have hu := hsu p hp
  have ht := hut p (fun hin => hp (hsub hin))
  cases p <;> exact Eq.trans ht hu

/-- Counting changes the counters alone. -/
theorem count_keepsBut (s : State) (c : Counter) (parts : List Part) (hc : .counters ∈ parts) :
    s.keepsBut (s.count c) parts := by
  intro p hp
  cases p <;> first | rfl | exact absurd hc hp

/-! ## A request and its reply (R32, R33, R176) -/

/-- R32: a copy for DOWN normal leaves the UP port as it is. -/
@[simp] theorem copyDown_normal_line_up (s : State) (f : Frame) (w : Word32) (g : Origin) :
    (s.copyDown .downNormal f w g).line.up = s.line.up := by
  unfold State.copyDown State.joinDown
  split
  · obtain ⟨-, h⟩ | ⟨-, h⟩ := join_cases s .downNormal ⟨f, some w, g⟩
    · simp [h, State.setQueue]
    · simp [h]
  · rfl

/-- R37: a copy for DOWN changes the line and the counters alone. -/
theorem copyDown_keepsBut (s : State) (q : QueueId) (f : Frame) (w : Word32) (g : Origin) :
    s.keepsBut (s.copyDown q f w g) [.line, .counters] := by
  intro p hp
  cases p <;> simp [State.samePart] at hp ⊢

/-- R37: the room of a queue is a matter of the line alone. -/
theorem hasRoom_of_line {s u : State} (h : u.line = s.line) (q : QueueId) : u.hasRoom q = s.hasRoom q := by
  have hqueue : u.queue q = s.queue q := by cases q <;> simp [State.queue, h]
  rw [State.hasRoom, State.hasRoom, hqueue]

/-- R176: where UP normal has room the reply joins it, whatever its status. -/
theorem reply_replied {s w : State} (hline : w.line = s.line) (hr : s.hasRoom .upNormal = true) (tag req : Byte)
    (st : Status) (results : List Byte) : s.replied (w.reply tag req st results) tag req st results := by
  unfold State.reply
  generalize hu : (if st = .ok then w else w.count .mgmtRefused) = u
  have huline : u.line = s.line := by
    rw [← hu, ← hline]
    split <;> simp
  obtain ⟨-, h⟩ | ⟨hfull, -⟩ := joinOwn_cases u (replyFrame tag req st results) .own .repliesLost
  · simp [State.replied, h, State.setQueue, huline]
  · simp [hasRoom_of_line huline, hr] at hfull

/-- R176: a reply changes the line and the counters alone. -/
theorem reply_keepsBut (s : State) (tag req : Byte) (st : Status) (results : List Byte) :
    s.keepsBut (s.reply tag req st results) [.line, .counters] := by
  intro p hp
  cases p <;> simp [State.samePart] at hp ⊢

/-- R192: with no reset pending a request is counted and its owner acts. -/
theorem takeRequest_of_no_reset {s : State} (h : s.mu.resetPending = false) (tag req : Byte) (act : State → State) :
    s.takeRequest tag req act = act (s.count .mgmtRequests) := by
  simp [State.takeRequest, h]

/-- R32, R33, R176: a taken request that its owner answers by one reply from the state w: UP normal gains that reply, and
w's parts but the line and the counters stand, whether the frame is copied to DOWN or not. -/
theorem request_answered {s w : State} {dt : Nat} {h : Hdr} {req : Byte} {act : State → State} {st : Status}
    {results : List Byte} (ht : s.takesRequest dt h)
    (hact : act ((s.arrived dt h).count .mgmtRequests) = w.reply h.tag req st results)
    (hline : w.line = (s.arrived dt h).line) (payload : List Byte) :
    ∃ t, live dt (State.request h payload fun u => u.takeRequest h.tag req act) s = t ∧
      (s.arrived dt h).replied t h.tag req st results ∧ w.keepsBut t [.line, .counters] := by
  obtain ⟨hhear, hport, hselected, hreset, hroom⟩ := ht
  have howner : (s.arrived dt h).takeRequest h.tag req act = w.reply h.tag req st results := by
    rw [takeRequest_of_no_reset (by simpa using hreset), hact]
  have hreplied := reply_replied hline hroom h.tag req st results
  have hkeeps := reply_keepsBut w h.tag req st results
  refine ⟨_, rfl, ?_⟩
  rw [live_running hhear.1, request_selected hhear hport hselected, howner]
  split
  · exact ⟨hreplied, hkeeps⟩
  · refine ⟨?_, keepsBut_trans hkeeps (copyDown_keepsBut _ _ _ _ _) (List.Subset.refl _)⟩
    rw [State.replied, copyDown_normal_line_up]
    exact hreplied

/-! ## The entries of a bank -/

/-- R60: the entries stand in index order. -/
theorem entriesWhere_sorted (b : Schedule) (p : Nat → Bool) : (entriesWhere b p).Pairwise (· < ·) :=
  (List.sortedLT_finRange 256).pairwise.filter _

@[simp] theorem mem_entriesWhere {b : Schedule} {p : Nat → Bool} {i : Fin 256} :
    i ∈ entriesWhere b p ↔ b[i].kind ≠ .empty ∧ p b[i].time = true := by
  simp [entriesWhere]

/-- In a sorted list, what holds of each pair in list order holds of each two members in their order. -/
theorem pairwise_iff_of_sorted {α : Type} [LinearOrder α] {R : α → α → Prop} {l : List α} (hl : l.Pairwise (· < ·)) :
    l.Pairwise R ↔ ∀ i ∈ l, ∀ k ∈ l, i < k → R i k := by
  induction l with
  | nil => simp
  | cons x l ih =>
    obtain ⟨hx, htail⟩ := List.pairwise_cons.mp hl
    rw [List.pairwise_cons, ih htail]
    constructor
    · rintro ⟨hhead, hrest⟩ i hi k hk hik
      obtain rfl | hil := List.mem_cons.mp hi <;> obtain rfl | hkl := List.mem_cons.mp hk
      · exact absurd hik (lt_irrefl _)
      · exact hhead k hkl
      · exact absurd (hx i hil) hik.not_gt
      · exact hrest i hil k hkl hik
    · intro h
      exact ⟨fun k hk => h x (by simp) k (by simp [hk]) (hx k hk),
        fun i hi k hk => h i (by simp [hi]) k (by simp [hk])⟩

/-! ## The order check (R60) -/

/-- R60: the check finds nothing where no entry is below the time given first and no entry is below an earlier one. -/
theorem outOfOrderFrom_eq_none {b : Schedule} {prev : Nat} {l : List (Fin 256)} :
    outOfOrderFrom b prev l = none ↔
      (∀ i ∈ l, prev ≤ b[i].time) ∧ l.Pairwise fun i k => b[i].time ≤ b[k].time := by
  induction l generalizing prev with
  | nil => simp [outOfOrderFrom]
  | cons x l ih =>
    rw [outOfOrderFrom, List.pairwise_cons, List.forall_mem_cons]
    split
    next hx => exact iff_of_false (Option.some_ne_none x) fun h => Nat.not_lt.mpr h.1.1 hx
    next hx =>
      rw [ih]
      constructor
      · rintro ⟨hge, hpair⟩
        exact ⟨⟨Nat.not_lt.mp hx, fun i hi => (Nat.not_lt.mp hx).trans (hge i hi)⟩, hge, hpair⟩
      · rintro ⟨-, h⟩
        exact h

/-- R60: the entry the check finds: those before it pass the check, and it is below the last of them, or where there is none
below the time given first. -/
theorem outOfOrderFrom_eq_some {b : Schedule} {prev : Nat} {l : List (Fin 256)} {j : Fin 256}
    (h : outOfOrderFrom b prev l = some j) :
    ∃ before after, l = before ++ j :: after ∧ outOfOrderFrom b prev before = none ∧
      (before = [] ∧ b[j].time < prev ∨ ∃ init i, before = init ++ [i] ∧ b[j].time < b[i].time) := by
  induction l generalizing prev with
  | nil => simp [outOfOrderFrom] at h
  | cons x l ih =>
    rw [outOfOrderFrom] at h
    split at h
    next hx =>
      obtain rfl := Option.some.inj h
      exact ⟨[], l, rfl, rfl, .inl ⟨rfl, hx⟩⟩
    next hx =>
      obtain ⟨before, after, rfl, hnone, hlast⟩ := ih h
      refine ⟨x :: before, after, rfl, by rw [outOfOrderFrom, if_neg hx, hnone], .inr ?_⟩
      obtain ⟨rfl, hlt⟩ | ⟨init, i, rfl, hlt⟩ := hlast
      · exact ⟨[], x, rfl, hlt⟩
      · exact ⟨x :: init, i, rfl, hlt⟩

/-- R60: a bank is in order when the times of its non-EMPTY entries do not fall with the index. -/
theorem firstOutOfOrder_eq_none (b : Schedule) : firstOutOfOrder b = none ↔
    ∀ i j : Fin 256, i < j → b[i].kind ≠ .empty → b[j].kind ≠ .empty → b[i].time ≤ b[j].time := by
  rw [firstOutOfOrder, outOfOrderFrom_eq_none, pairwise_iff_of_sorted (entriesWhere_sorted b _)]
  simp only [mem_entriesWhere, and_true, Nat.zero_le, implies_true, true_and]
  exact ⟨fun h i j hij hi hj => h i hi j hj hij, fun h i hi j hj hij => h i j hij hi hj⟩

/-- R60: the entry found out of order is below its nearest non-EMPTY predecessor, and those before it are in order. -/
theorem firstOutOfOrder_eq_some {b : Schedule} {j : Fin 256} (h : firstOutOfOrder b = some j) :
    b[j].kind ≠ .empty ∧
    (∃ i : Fin 256, i < j ∧ b[i].kind ≠ .empty ∧ (∀ k : Fin 256, i < k → k < j → b[k].kind = .empty) ∧
      b[j].time < b[i].time) ∧
    ∀ i k : Fin 256, i < k → k < j → b[i].kind ≠ .empty → b[k].kind ≠ .empty → b[i].time ≤ b[k].time := by
  obtain ⟨before, after, hsplit, hnone, hlast⟩ := outOfOrderFrom_eq_some h
  have hmem : ∀ k : Fin 256, b[k].kind ≠ .empty ↔ k ∈ before ++ j :: after := by
    intro k
    simp [← hsplit]
  have hsorted : (before ++ j :: after).Pairwise (· < ·) := hsplit ▸ entriesWhere_sorted b _
  obtain ⟨hbefore, hafter, hcross⟩ := List.pairwise_append.mp hsorted
  have hin : ∀ k : Fin 256, k < j → b[k].kind ≠ .empty → k ∈ before := by
    intro k hkj hk
    obtain hk | rfl | hk : k ∈ before ∨ k = j ∨ k ∈ after := by simpa using (hmem k).mp hk
    · exact hk
    · exact absurd hkj (lt_irrefl _)
    · exact absurd ((List.pairwise_cons.mp hafter).1 k hk) hkj.not_gt
  refine ⟨(hmem j).mpr (by simp), ?_, fun i k hik hkj hi hk => ?_⟩
  · obtain ⟨-, hlt⟩ | ⟨init, i, rfl, hlt⟩ := hlast
    · exact absurd hlt (Nat.not_lt_zero _)
    · refine ⟨i, hcross i (by simp) j (by simp), (hmem i).mpr (by simp), fun k hik hkj => ?_, hlt⟩
      by_contra hk
      obtain hk | rfl : k ∈ init ∨ k = i := by simpa using hin k hkj hk
      · exact absurd ((List.pairwise_append.mp hbefore).2.2 k hk i (by simp)) hik.not_gt
      · exact lt_irrefl _ hik
  · exact (pairwise_iff_of_sorted hbefore).mp (outOfOrderFrom_eq_none.mp hnone).2 i (hin i (hik.trans hkj) hi) k
      (hin k hkj hk) hik

/-! ## Activation (R60) -/

/-- R60: while an activation is pending the request is replied OK and nothing changes. -/
theorem activate_of_pending {s : State} (h : s.bs.pendingSwap = true) (tag : Byte) :
    s.activate tag = s.reply tag 5 .ok [] := by
  simp [State.activate, State.ok, h]

/-- R60: a standby bank in order is replied OK and the flag is set. -/
theorem activate_of_order {s : State} (h : s.bs.pendingSwap = false) (ho : firstOutOfOrder s.bs.standbyBank = none)
    (tag : Byte) :
    s.activate tag = { s with bs := { s.bs with pendingSwap := true } }.reply tag 5 .ok [] := by
  simp [State.activate, State.ok, h, ho]

/-- R60: a standby bank out of order is refused with the index of the entry found. -/
theorem activate_of_disorder {s : State} {i : Fin 256} (h : s.bs.pendingSwap = false)
    (ho : firstOutOfOrder s.bs.standbyBank = some i) (tag : Byte) :
    s.activate tag = s.reply tag 5 .order (enc16 i.val) := by
  simp [State.activate, h, ho]

theorem exec_activateBank (dt : Nat) (h : Hdr) (s : State) : exec (.activateBank dt h) s =
    .next (live dt (State.request h [5] fun u => u.takeRequest h.tag 5 (State.activate h.tag)) s) := rfl

/-- R60: a taken ACTIVATE_BANK is answered as State.activate answers it in the state of the frame's arrival. -/
theorem exec_activateBank_answered {s w : State} {dt : Nat} {h : Hdr} {st : Status} {results : List Byte}
    (ht : s.takesRequest dt h)
    (hact : ((s.arrived dt h).count .mgmtRequests).activate h.tag = w.reply h.tag 5 st results)
    (hline : w.line = (s.arrived dt h).line) :
    ∃ t, exec (.activateBank dt h) s = .next t ∧ (s.arrived dt h).replied t h.tag 5 st results ∧
      w.keepsBut t [.line, .counters] := by
  obtain ⟨t, hlive, hanswer⟩ := request_answered (act := State.activate h.tag) ht hact hline [5]
  exact ⟨t, by rw [exec_activateBank, hlive], hanswer⟩

/-- Settles O28: the order check is read off the list of non-EMPTY entries, and each case of the flag is one reply. -/
theorem bankActivated : Obligations.BankActivated := by
  refine ⟨firstOutOfOrder_eq_none, fun _ _ h => firstOutOfOrder_eq_some h, ?_⟩
  intro s dt h ht v
  have hbs : (v.count .mgmtRequests).bs = s.bs := by simp [v]
  have hcount := count_keepsBut v .mgmtRequests
  refine ⟨fun hp => ?_, fun hp ho => ?_, fun i hp ho => ?_⟩
  · obtain ⟨t, hexec, hreplied, hkeeps⟩ := exec_activateBank_answered ht (activate_of_pending (by rw [hbs, hp]) _) rfl
    exact ⟨t, hexec, hreplied, keepsBut_trans (hcount _ (by simp)) hkeeps (List.Subset.refl _)⟩
  · obtain ⟨t, hexec, hreplied, hkeeps⟩ :=
      exec_activateBank_answered ht (activate_of_order (by rw [hbs, hp]) (by rw [hbs, ho]) _) rfl
    have hset : v.keepsBut { v.count .mgmtRequests with
        bs := { (v.count .mgmtRequests).bs with pendingSwap := true } } [.line, .bs, .counters] := by
      intro p hp
      cases p <;> simp [State.samePart] at hp ⊢
    refine ⟨t, hexec, hreplied, ?_, keepsBut_trans hset hkeeps (by simp)⟩
    have htbs : t.bs = _ := hkeeps .bs (by simp)
    rw [htbs, hbs]
  · obtain ⟨t, hexec, hreplied, hkeeps⟩ :=
      exec_activateBank_answered ht (activate_of_disorder (by rw [hbs, hp]) (by rw [hbs, ho]) _) rfl
    exact ⟨t, hexec, hreplied, keepsBut_trans (hcount _ (by simp)) hkeeps (List.Subset.refl _)⟩

end Sys2Proof.Machine

/-! PROOFS. A property of the state that every act of a command keeps is kept by every command (the dispatch, once for
all such properties). -/

namespace Sys2Proof.Machine

/-- The passing of time, and the acts of the line (Chapter 2), keep P. -/
structure LineKept (P : State → Prop) : Prop where
  elapse {s : State} (dt : Nat) : P s → P (s.elapse dt)
  count {s : State} (c : Counter) : P s → P (s.count c)
  draw {s : State} : P s → P s.draw.2
  reply {s : State} (tag req : Byte) (st : Status) (r : List Byte) : P s → P (s.reply tag req st r)
  endReception {s : State} (p : PortId) : P s → P (s.endReception p)
  beginReception {s : State} (p : PortId) : P s → P (s.beginReception p)
  learnAt {s : State} (h : Hdr) : P s → P (s.learnAt h)
  joinDown {s : State} (q : QueueId) (i : QItem) : P s → P (s.joinDown q i)
  relayUp {s : State} (f : Frame) : P s → P (s.relayUp f)
  signalPresent {s : State} (p : PortId) : P s → P (s.signalPresent p)
  debounced {s : State} (p : PortId) : P s → P (s.debounced p)
  retrain {s : State} (p : PortId) : P s → P (s.retrain p)
  trained {s : State} (p : PortId) : P s → P (s.trained p)
  attachLost {s : State} (p : PortId) : P s → P (s.attachLost p)
  signalLost {s : State} (p : PortId) : P s → P (s.signalLost p)
  startTransmission {s : State} (p : PortId) : P s → P (s.startTransmission p)
  transmissionEnds {s : State} (p : PortId) : P s → P (s.transmissionEnds p)

/-- The acts of the Timebase (Chapter 1) keep P. -/
structure TimeKept (P : State → Prop) : Prop where
  acceptTime {s : State} {payload : List Byte} {f : TimeFields} (hf : timeFields payload = some f) (lag : Word32) (b : Bool) :
    P s → P (s.acceptTime f lag.toNat b)
  takeEchoReply {s : State} (tag : Byte) (payload : List Byte) : P s → P (s.takeEchoReply tag payload)
  localTickEvent {s : State} (b : Bool) : P s → P (s.localTickEvent b)
  timeoutEnds {s : State} : P s → P s.timeoutEnds
  echoPeriodEnds {s : State} : P s → P s.echoPeriodEnds
  echoTimesOut {s : State} : P s → P s.echoTimesOut
  backupSecond {s : State} : P s → P s.backupSecond

/-- The acts of claims, tones, pages and bells (Chapters 3 to 6) keep P. -/
structure SoundKept (P : State → Prop) : Prop where
  takeAudio {s : State} (payload : List Byte) : P s → P (s.takeAudio payload)
  takeOpen {s : State} (payload : List Byte) : P s → P (s.takeOpen payload)
  takeClose {s : State} (payload : List Byte) : P s → P (s.takeClose payload)
  chimeEnds {s : State} (r : Fin 8) : P s → P (s.chimeEnds r)
  chimePhaseEnd {s : State} (r : Fin 8) : P s → P (s.chimePhaseEnd r)
  frameClock {s : State} : P s → P s.frameClock
  silenceEnds {s : State} (r : Fin 8) : P s → P (s.silenceEnds r)
  takeBellNow {s : State} (payload : List Byte) : P s → P (s.takeBellNow payload)
  takeSelect {s : State} (payload : List Byte) : P s → P (s.takeSelect payload)
  bellEnds {s : State} (o : Output) : P s → P (rechooseAll [o] (s.dropClaim .bell o))
  outputPhaseEnd {s : State} (o : Output) : P s → P (s.outputPhaseEnd o)

/-- The acts of clock lines, circuits, fire and drills (Chapters 7 to 9) keep P. -/
structure PlantKept (P : State → Prop) : Prop where
  checkPulse {s : State} (k : LineNo) (p : Pulse) (reading : Byte) : P s → P (s.checkPulse k p reading)
  endPulse {s : State} (k : LineNo) (pol : Polarity) (b : Bool) : P s → P (s.endPulse k pol b)
  evaluate {s : State} (k : LineNo) : P s → P (s.evaluate k)
  dwellEnds {s : State} (reading : Byte) : P s → P (s.dwellEnds reading)
  checkFire {s : State} (reading : Byte) : P s → P (s.checkFire reading)
  takeStart {s : State} (id : Word16) (program : Fin 4) (day : Word16) (ms : Nat) : P s → P (s.takeStart id program day ms)
  takeAbort {s : State} (id : Word16) : P s → P (s.takeAbort id)
  takeAllClear {s : State} (id : Word16) : P s → P (s.takeAllClear id)
  evacuateNow {s : State} (d : Drill) : P s → P (rechooseAll allOutputs (s.enterEvacuate d))
  holdNow {s : State} (d : Drill) : P s → P (rechooseAll allOutputs (s.enterHold d))
  allClearNow {s : State} (d : Drill) (b : Bool) : P s → P (rechooseAll allOutputs (s.enterAllClear d b))
  endDrillNow {s : State} (d : Drill) (o : DrillOutcome) : P s → P (rechooseAll allOutputs (s.endDrill d o))
  progressDue {s : State} : P s → P s.progressDue
  setHoldKey {s : State} (k : Key) : P s → P { s with fdc := { s.fdc with holdKey := k } }
  setSweeps {s : State} (v : Vector Key 8) : P s → P { s with fdc := { s.fdc with sweeps := v } }
  takeSweep {s : State} (i : Fin 8) : P s → P (s.takeSweep i)

/-- The acts of management (Chapter 10) but the writes keep P. -/
structure RequestKept (P : State → Prop) : Prop where
  unassignedEnds {s : State} : P s → P s.unassignedEnds
  setAddr {s : State} (h : Hdr) (addr : Word16) : P s → P (s.setAddr h addr)
  clearCounters {s : State} (start n : Nat) : P s → P (s.clearCounters start n)
  activate {s : State} (tag : Byte) : P s → P (s.activate tag)
  resyncClock {s : State} (tag line : Byte) (position : Word16) (polarity : Byte) :
    P s → P (s.resyncClock tag line position polarity)
  recover {s : State} (tag circuit : Byte) : P s → P (s.recover tag circuit)
  applyOn {s : State} (o : Output) : P s → P (s.applyOn o)
  applyOff {s : State} (o : Output) : P s → P (s.applyOff o)
  applyRelease {s : State} (o : Output) : P s → P (s.applyRelease o)
  saveImage {s : State} (tag : Byte) : P s → P (s.saveImage tag)
  saveDone {s : State} : P s → P s.saveDone
  askLineReset {s : State} (tag : Byte) : P s → P (s.askLineReset tag)

/-- The changes of a WRITE_TABLE (R180) and the resets (R190, R191) keep P. -/
structure WriteKept (P : State → Prop) : Prop where
  changeSched {s : State} (bank : Bank) (start : Nat) (rs : List (Option SchedEntry)) : P s → P (s.changeSched bank start rs)
  changeCalendar {s : State} (start : Nat) (rs : List (Option CalendarEntry)) : P s → P (s.changeCalendar start rs)
  changeWeek {s : State} (start : Nat) (rs : List (Option Plan)) : P s → P (s.changeWeek start rs)
  changeWindows {s : State} (start : Nat) (rs : List (Option Window)) : P s → P (s.changeWindows start rs)
  changeAttrs {s : State} (start : Nat) (rs : List (Option ZoneAttr)) : P s → P (s.changeAttrs start rs)
  changeTones {s : State} (start : Nat) (rs : List (Option TonePattern)) : P s → P (s.changeTones start rs)
  changeClocks {s : State} (start : Nat) (rs : List (Option ClockCfg)) : P s → P (s.changeClocks start rs)
  changeSups {s : State} (start : Nat) (rs : List (Option SupCfg)) : P s → P (s.changeSups start rs)
  changeDrills {s : State} (start : Nat) (rs : List (Option DrillProg)) : P s → P (s.changeDrills start rs)
  changeNode {s : State} (start : Nat) {rs : List (Option NodeCfg)} (hrs : ∀ n, some n ∈ rs → n.good = true) :
    P s → P (s.changeNode start rs)
  hold {s : State} (cause : ResetCause) : P s → P (s.hold cause)
  release {s : State} (key : Bool) (sweeps : Byte) (supply : Bool) : P s → P (s.release key sweeps supply)
  backupLost {s : State} : P s → P s.backupLost

/-- P is kept by the passing of time and by each act that a command runs. -/
structure Kept (P : State → Prop) : Prop extends LineKept P, TimeKept P, SoundKept P, PlantKept P, RequestKept P,
  WriteKept P

/-- R181: a NODECFG record that is taken lies within its values. -/
theorem good_of_decNode {b : List Byte} {n : NodeCfg} (h : decNode b = some n) : n.good = true := by
  unfold decNode at h
  dsimp only at h
  split at h
  · split at h
    · next hg => exact Option.some.inj h ▸ hg.2
    · cases h
  · cases h

namespace Kept

variable {P : State → Prop} {s t : State}

/-! ## Reception (R25 to R36) -/

theorem live (k : Kept P) {dt : Nat} {act : State → State} (hact : ∀ t, P t → P (act t)) (h : P s) :
    P (Machine.live dt act s) := by
  unfold Machine.live
  split
  · exact k.elapse dt h
  · exact hact _ (k.elapse dt h)

theorem copyDown (k : Kept P) (q : QueueId) (f : Frame) (w : Word32) (o : Origin) (h : P s) : P (s.copyDown q f w o) :=
  k.joinDown q _ h

theorem sorted (k : Kept P) {proper : PortId} {hd : Hdr} {act : State → State} (hact : ∀ t, P t → P (act t)) (h : P s) :
    P (s.sorted proper hd act) := by
  unfold State.sorted
  split
  · exact hact _ (k.learnAt hd h)
  · exact k.count _ (k.learnAt hd h)

theorem receive (k : Kept P) {proper : PortId} {hd : Hdr} {act : State → State} (hact : ∀ t, P t → P (act t)) (h : P s) :
    P (s.receive proper hd act) := by
  unfold State.receive
  split
  · exact k.sorted hact (k.endReception _ h)
  · exact h

theorem selective (k : Kept P) {kind : Byte} {hd : Hdr} {payload : List Byte} {owner : State → State}
    (howner : ∀ t, P t → P (owner t)) (h : P s) : P (s.selective kind hd payload owner) := by
  refine k.receive (fun t ht => ?_) h
  split
  · exact k.copyDown _ _ _ _ (howner t ht)
  · exact k.copyDown _ _ _ _ ht

theorem discardReception (k : Kept P) (p : PortId) (c : Counter) (h : P s) : P (s.discardReception p c) := by
  unfold State.discardReception
  split
  · exact k.count _ (k.endReception _ h)
  · exact h

theorem dropFailed (k : Kept P) (p : PortId) (bytes : List Byte) (h : P s) : P (s.dropFailed p bytes) := by
  unfold State.dropFailed
  split
  · split
    · exact k.count _ (k.endReception _ h)
    · exact k.count _ (k.endReception _ h)
    · exact h
  · exact h

theorem timeFrame (k : Kept P) (hd : Hdr) (payload : List Byte) (lag : Word32) (b : Bool) (h : P s) :
    P (s.timeFrame hd payload lag.toNat b) := by
  refine k.receive (fun t ht => ?_) h
  split
  · next f hf => exact k.copyDown _ _ _ _ (k.acceptTime hf lag b ht)
  · exact k.copyDown _ _ _ _ (k.count _ ht)

theorem echoReplied (k : Kept P) (hd : Hdr) (payload : List Byte) (h : P s) : P (s.echoReplied hd payload) := by
  unfold State.echoReplied
  dsimp only
  split
  · split
    · exact k.takeEchoReply _ _ (k.endReception _ h)
    · exact k.count _ (k.endReception _ h)
  · exact h

theorem unknownFrame (k : Kept P) (hd : Hdr) (kind : Byte) (payload : List Byte) (h : P s) :
    P (s.unknownFrame hd kind payload) := by
  have hcounted := k.count .unknownKind (k.learnAt hd (k.endReception hd.port h))
  unfold State.unknownFrame
  dsimp only
  split
  · split
    · exact k.copyDown _ _ _ _ hcounted
    · exact k.relayUp _ hcounted
  · exact h

theorem takeStartFrame (k : Kept P) (payload : List Byte) (h : P s) : P (s.takeStartFrame payload) := by
  unfold State.takeStartFrame
  dsimp only
  split
  · split
    · exact k.takeStart _ _ _ _ h
    · exact k.count _ h
  · exact k.count _ h

theorem takeAbortFrame (k : Kept P) (payload : List Byte) (h : P s) : P (s.takeAbortFrame payload) := by
  unfold State.takeAbortFrame
  split
  · exact k.takeAbort _ h
  · exact k.count _ h

theorem takeAllClearFrame (k : Kept P) (payload : List Byte) (h : P s) : P (s.takeAllClearFrame payload) := by
  unfold State.takeAllClearFrame
  split
  · exact k.takeAllClear _ h
  · exact k.count _ h

/-! ## Events with a condition -/

theorem atDeadline {phase : DrillPhase} {act : Drill → State}
    (hact : ∀ d, P (rechooseAll allOutputs (act d))) (h : P s) : P (s.atDeadline phase act) := by
  unfold State.atDeadline
  split
  · split
    · exact hact _
    · exact h
  · exact h

theorem takeHoldKey (k : Kept P) (h : P s) : P s.takeHoldKey := by
  unfold State.takeHoldKey
  split
  · exact k.endDrillNow _ _ h
  · exact k.count _ h

/-! ## Requests (R176 to R192) -/

theorem takeRequest (k : Kept P) {tag req : Byte} {act : State → State} (hact : ∀ t, P t → P (act t)) (h : P s) :
    P (s.takeRequest tag req act) := by
  unfold State.takeRequest
  dsimp only
  split
  · exact k.reply _ _ _ _ (k.count _ h)
  · exact hact _ (k.count _ h)

theorem matchRequest (k : Kept P) {hd : Hdr} {payload : List Byte} {owner : State → State}
    (howner : ∀ t, P t → P (owner t)) (h : P s) : P (s.matchRequest hd payload owner) := by
  unfold State.matchRequest
  split
  · exact howner _ h
  · split
    · exact k.copyDown _ _ _ _ (howner _ h)
    · exact k.copyDown _ _ _ _ h

theorem request (k : Kept P) {hd : Hdr} {payload : List Byte} {owner : State → State}
    (howner : ∀ t, P t → P (owner t)) (h : P s) : P (s.request hd payload owner) :=
  k.receive (fun _ ht => k.matchRequest howner ht) h

theorem requestAfterLoss (k : Kept P) {hd : Hdr} {payload : List Byte} {owner : State → State}
    (howner : ∀ t, P t → P (owner t)) (h : P s) : P (s.requestAfterLoss hd payload owner) := by
  unfold State.requestAfterLoss
  split
  · exact k.sorted (fun _ ht => k.matchRequest howner ht) (k.signalLost _ (k.endReception _ h))
  · exact k.signalLost _ h

theorem readTable (k : Kept P) (tag space : Byte) (start : Word16) (count clear : Byte) (h : P s) :
    P (s.readTable tag space start count clear) := by
  unfold State.readTable
  split
  · exact k.reply _ _ _ _ h
  · split
    · exact k.reply _ _ _ _ h
    · unfold State.readRecords
      dsimp only
      split
      · exact k.reply _ _ _ _ (k.clearCounters _ _ h)
      · exact k.reply _ _ _ _ h

theorem unknownRequest (k : Kept P) (tag : Byte) (payload : List Byte) (h : P s) : P (s.unknownRequest tag payload) :=
  k.takeRequest (fun _ ht => k.reply _ _ _ _ ht) (k.draw h)

/-- R180: the change of a write is made with the records that the owner's checks pass. -/
theorem writeTable (k : Kept P) {α : Type} {tag : Byte} {sp : Space} {dec : Nat → List Byte → Option α}
    {owner : Option Status} {start : Word16} {count : Byte} {data : List Byte} {change : List (Option α) → State → State}
    (hchange : ∀ rs t, (∀ x, some x ∈ rs → ∃ n b, dec n b = some x) → P t → P (change rs t)) (h : P s) :
    P (s.writeTable tag sp dec owner start count data change) := by
  unfold State.writeTable
  split
  · exact k.reply _ _ _ _ h
  · exact k.reply _ _ _ _ h
  · dsimp only
    split
    · exact k.reply _ _ _ _ h
    · refine hchange _ _ (fun x hx => ?_) (k.reply _ _ _ _ h)
      obtain ⟨i, -, hi⟩ := List.mem_map.mp hx
      exact ⟨_, _, hi⟩

theorem writeRequest (k : Kept P) {α : Type} {dt : Nat} {hd : Hdr} {space : Byte} {sp : Space}
    {dec : Nat → List Byte → Option α} {owner : State → Option Status} {start : Word16} {count : Byte} {data : List Byte}
    {change : List (Option α) → State → State}
    (hchange : ∀ rs t, (∀ x, some x ∈ rs → ∃ n b, dec n b = some x) → P t → P (change rs t)) (h : P s)
    (he : s.writeRequest dt hd space sp dec owner start count data change = .next t) : P t := by
  obtain ⟨-, rfl⟩ := carried_next he
  exact k.live (fun _ ht => k.request (fun _ hu => k.takeRequest (fun _ hv => k.writeTable hchange hv) hu) ht) h

theorem forceOn (k : Kept P) (tag output : Byte) (h : P s) : P (s.forceOn tag output) := by
  unfold State.forceOn
  split
  · split
    · exact k.reply _ _ _ _ h
    · split
      · exact k.applyOn _ (k.reply _ _ _ _ h)
      · exact k.reply _ _ _ _ h
  · exact k.reply _ _ _ _ h

theorem forceOff (k : Kept P) (tag output : Byte) (h : P s) : P (s.forceOff tag output) := by
  unfold State.forceOff
  split
  · split
    · exact k.applyOff _ (k.reply _ _ _ _ h)
    · exact k.reply _ _ _ _ h
  · exact k.reply _ _ _ _ h

theorem forceRelease (k : Kept P) (tag output : Byte) (h : P s) : P (s.forceRelease tag output) := by
  unfold State.forceRelease
  split
  · exact k.applyRelease _ (k.reply _ _ _ _ h)
  · exact k.reply _ _ _ _ h

/-! ## The dispatch -/

/-- An event that is always carried. -/
theorem of_next {u : State} (he : (Host.Outcome.next u : Host.Outcome State Fault Refusal) = .next t) (h : P u) : P t :=
  Host.Outcome.next.inj he ▸ h

/-- An event that is carried where its operands can occur. -/
theorem of_carried {u : State} {b : Bool} (he : carried b u = .next t) (h : P u) : P t := by
  obtain ⟨-, rfl⟩ := carried_next he
  exact h

theorem of_ite {c : Prop} [Decidable c] {u v : State} (hu : P u) (hv : P v) : P (if c then u else v) := by
  split <;> assumption

/-- A request is received, matched and taken. -/
theorem of_request (k : Kept P) {dt : Nat} {hd : Hdr} {payload : List Byte} {req : Byte} {act : State → State}
    (hact : ∀ t, P t → P (act t)) (h : P s) :
    P (Machine.live dt (State.request hd payload (fun t => t.takeRequest hd.tag req act)) s) :=
  k.live (fun _ ht => k.request (fun _ hu => k.takeRequest hact hu) ht) h

/-- A frame whose owner acts where its selector matches. -/
theorem of_selective (k : Kept P) {dt : Nat} {kind : Byte} {hd : Hdr} {payload : List Byte} {owner : State → State}
    (howner : ∀ t, P t → P (owner t)) (h : P s) :
    P (Machine.live dt (fun t => t.selective kind hd payload owner) s) :=
  k.live (fun _ ht => k.selective howner ht) h

theorem exec (k : Kept P) {c : Instr} (h : P s) (he : Machine.exec c s = .next t) : P t := by
  cases c with
  | lineSignalPresent dt p => exact of_next he (k.live (fun _ ht => k.signalPresent p ht) h)
  | debounceTimerExpiry dt p => exact of_next he (k.live (fun _ ht => k.debounced p ht) h)
  | trainingCodeGroup dt p => exact of_next he (k.live (fun _ ht => k.retrain p ht) h)
  | trainingTimerExpiry dt p => exact of_next he (k.live (fun _ ht => k.trained p ht) h)
  | lineSignalLostInAttach dt p => exact of_next he (k.live (fun _ ht => k.attachLost p ht) h)
  | lineSignalLost dt p => exact of_next he (k.live (fun _ ht => k.signalLost p ht) h)
  | codeViolationInFrame dt p => exact of_next he (k.live (fun _ ht => k.discardReception p _ ht) h)
  | frameOverlength dt p => exact of_next he (k.live (fun _ ht => k.discardReception p _ ht) h)
  | frameCheckFailed dt p bytes => exact of_carried he (k.live (fun _ ht => k.dropFailed p bytes ht) h)
  | time dt hd payload lag b => exact of_carried he (k.live (fun _ ht => k.timeFrame hd payload lag b ht) h)
  | audio dt hd payload =>
    exact of_carried he (k.live (fun _ ht => k.receive (fun _ hu => k.copyDown _ _ _ _ (k.takeAudio payload hu)) ht) h)
  | pageOpen dt hd payload => exact of_carried he (k.of_selective (fun _ ht => k.takeOpen payload ht) h)
  | pageClose dt hd payload => exact of_carried he (k.of_selective (fun _ ht => k.takeClose payload ht) h)
  | bellNow dt hd payload => exact of_carried he (k.of_selective (fun _ ht => k.takeBellNow payload ht) h)
  | select dt hd payload => exact of_carried he (k.of_selective (fun _ ht => k.takeSelect payload ht) h)
  | drillStart dt hd rest => exact of_carried he (k.of_selective (fun _ ht => k.takeStartFrame _ ht) h)
  | drillAbort dt hd rest => exact of_carried he (k.of_selective (fun _ ht => k.takeAbortFrame _ ht) h)
  | drillAllClear dt hd rest => exact of_carried he (k.of_selective (fun _ ht => k.takeAllClearFrame _ ht) h)
  | drillBadCommand dt hd payload => exact of_carried he (k.of_selective (fun _ ht => k.count _ ht) h)
  | mgmtRpl dt hd payload => exact of_carried he (k.live (fun _ ht => k.receive (fun _ hu => k.relayUp _ hu) ht) h)
  | notice dt hd payload => exact of_carried he (k.live (fun _ ht => k.receive (fun _ hu => k.relayUp _ hu) ht) h)
  | echoReq dt hd payload => exact of_carried he (k.live (fun _ ht => k.receive (fun _ hu => k.joinDown _ _ hu) ht) h)
  | echoRpl dt hd payload => exact of_carried he (k.live (fun _ ht => k.echoReplied hd payload ht) h)
  | unknownKind dt hd kind payload => exact of_carried he (k.live (fun _ ht => k.unknownFrame hd kind payload ht) h)
  | transmitStart dt p => exact of_next he (k.live (fun _ ht => k.startTransmission p ht) h)
  | frameTransmitEnd dt p => exact of_next he (k.live (fun _ ht => k.transmissionEnds p ht) h)
  | localTick b => exact of_next he (of_ite h (k.localTickEvent b h))
  | timeTimeoutExpiry dt => exact of_next he (k.live (fun _ ht => k.timeoutEnds ht) h)
  | echoPeriodExpiry dt => exact of_next he (k.live (fun _ ht => k.echoPeriodEnds ht) h)
  | echoReplyTimeout dt => exact of_next he (k.live (fun _ ht => k.echoTimesOut ht) h)
  | backupCounterSecond dt => exact of_next he (k.backupSecond (k.elapse dt h))
  | bellClaimExpiry dt o => exact of_next he (k.live (fun _ ht => of_ite (k.bellEnds o ht) ht) h)
  | tonePhaseEnd dt w =>
    cases w with
    | output o => exact of_next he (k.live (fun _ ht => k.outputPhaseEnd o ht) h)
    | chime r => exact of_next he (k.live (fun _ ht => k.chimePhaseEnd r ht) h)
  | chimeEnd dt r => exact of_next he (k.live (fun _ ht => k.chimeEnds r ht) h)
  | frameClockTick dt => exact of_next he (k.live (fun _ ht => k.frameClock ht) h)
  | silenceTimerExpiry dt r => exact of_next he (k.live (fun _ ht => k.silenceEnds r ht) h)
  | pulseMidCheck dt n reading =>
    refine of_next he (k.live (fun t ht => ?_) h)
    split
    · exact of_ite (k.checkPulse _ _ _ ht) ht
    · exact ht
  | pulseEnd dt n =>
    refine of_next he (k.live (fun t ht => ?_) h)
    split
    · exact of_ite (k.endPulse _ _ _ ht) ht
    · exact ht
  | gapWaitEnd dt n => exact of_next he (k.live (fun _ ht => of_ite (k.evaluate n ht) ht) h)
  | dwellEnd dt reading => exact of_next he (k.live (fun _ ht => k.dwellEnds reading ht) h)
  | fireCheck dt reading => exact of_next he (k.live (fun _ ht => k.checkFire reading ht) h)
  | preAlertEnd dt => exact of_next he (k.live (fun _ ht => atDeadline (fun d => k.evacuateNow d ht) ht) h)
  | evacuateEnd dt => exact of_next he (k.live (fun _ ht => atDeadline (fun d => k.holdNow d ht) ht) h)
  | holdLimitExpiry dt => exact of_next he (k.live (fun _ ht => atDeadline (fun d => k.allClearNow d _ ht) ht) h)
  | allClearPhaseEnd dt => exact of_next he (k.live (fun _ ht => atDeadline (fun d => k.endDrillNow d _ ht) ht) h)
  | drillProgress dt => exact of_next he (k.live (fun _ ht => k.progressDue ht) h)
  | holdKeyPress dt => exact of_next he (k.live (fun _ ht => of_ite (k.takeHoldKey (k.setHoldKey _ ht)) ht) h)
  | sweepPress dt i => exact of_next he (k.live (fun _ ht => of_ite (k.takeSweep i (k.setSweeps _ ht)) ht) h)
  | unassignedTimerExpiry dt => exact of_next he (k.live (fun _ ht => k.unassignedEnds ht) h)
  | ping dt hd => exact of_next he (k.of_request (fun _ ht => k.reply _ _ _ _ (k.draw ht)) h)
  | setAddr dt hd addr => exact of_next he (k.of_request (fun _ ht => k.setAddr hd addr ht) h)
  | readTable dt hd space start count clear => exact of_next he (k.of_request (fun _ ht => k.readTable _ _ _ _ _ ht) h)
  | writeSched dt hd bank start count data => exact k.writeRequest (fun _ _ _ ht => k.changeSched _ _ _ ht) h he
  | writeCalendar dt hd start count data => exact k.writeRequest (fun _ _ _ ht => k.changeCalendar _ _ ht) h he
  | writeWeekplan dt hd start count data => exact k.writeRequest (fun _ _ _ ht => k.changeWeek _ _ ht) h he
  | writeWindows dt hd start count data => exact k.writeRequest (fun _ _ _ ht => k.changeWindows _ _ ht) h he
  | writeZoneattr dt hd start count data => exact k.writeRequest (fun _ _ _ ht => k.changeAttrs _ _ ht) h he
  | writeTones dt hd start count data => exact k.writeRequest (fun _ _ _ ht => k.changeTones _ _ ht) h he
  | writeClockcfg dt hd start count data => exact k.writeRequest (fun _ _ _ ht => k.changeClocks _ _ ht) h he
  | writeSupcfg dt hd start count data => exact k.writeRequest (fun _ _ _ ht => k.changeSups _ _ ht) h he
  | writeDrillprog dt hd start count data => exact k.writeRequest (fun _ _ _ ht => k.changeDrills _ _ ht) h he
  | writeNodecfg dt hd start count data =>
    refine k.writeRequest (fun rs _ hrs ht => k.changeNode _ (fun n hn => ?_) ht) h he
    obtain ⟨_, _, hdec⟩ := hrs n hn
    exact good_of_decNode hdec
  | activateBank dt hd => exact of_next he (k.of_request (fun _ ht => k.activate _ ht) h)
  | readStatus dt hd => exact of_next he (k.of_request (fun _ ht => k.reply _ _ _ _ (k.draw ht)) h)
  | resyncClock dt hd line position polarity => exact of_next he (k.of_request (fun _ ht => k.resyncClock _ _ _ _ ht) h)
  | recoverCircuit dt hd circuit => exact of_next he (k.of_request (fun _ ht => k.recover _ _ ht) h)
  | forceOn dt hd output => exact of_next he (k.of_request (fun _ ht => k.forceOn _ _ ht) h)
  | forceOff dt hd output => exact of_next he (k.of_request (fun _ ht => k.forceOff _ _ ht) h)
  | forceRelease dt hd output => exact of_next he (k.of_request (fun _ ht => k.forceRelease _ _ ht) h)
  | saveImage dt hd => exact of_next he (k.of_request (fun _ ht => k.saveImage _ ht) h)
  | saveComplete dt => exact of_next he (k.live (fun _ ht => k.saveDone ht) h)
  | lineReset dt frame =>
    refine of_next he (k.live (fun t ht => ?_) h)
    have hask : ∀ u, P u → P (u.takeRequest frame.hdr.tag 11 (State.askLineReset frame.hdr.tag)) :=
      fun u hu => k.takeRequest (fun _ hv => k.askLineReset _ hv) hu
    split
    · exact k.requestAfterLoss hask ht
    · exact k.request hask ht
  | unknownRequest dt hd payload =>
    exact of_carried he (k.live (fun _ ht => k.request (fun _ hu => k.unknownRequest _ _ hu) ht) h)
  | resetHeld dt cause => exact of_next he (k.hold cause (k.elapse dt h))
  | fullReset dt levels sweepDown => exact of_next he (k.release _ _ _ (k.elapse dt h))
  | frameStartDelimiter dt p => exact of_next he (k.live (fun _ ht => k.beginReception p ht) h)
  | backupSupplyLoss dt => exact of_next he (k.backupLost (k.elapse dt h))
  | writeTableBadSpace dt hd space start count data =>
    exact of_carried he (k.of_request (fun _ ht => k.reply _ _ _ _ ht) h)

/-- R1: the step of the queue: a property that does not read the queue is kept. -/
theorem step (k : Kept P) (hq : ∀ s q, P s → P (s.withPending q)) (h : P s) (he : Machine.step s = .next t) : P t := by
  unfold Machine.step at he
  split at he
  · exact of_next he h
  · exact k.exec (hq _ _ h) he

end Kept

end Sys2Proof.Machine

/-! PROOFS. The Zone Arbiter (Chapter 5): what each operation makes of an output's claims, force state, winner and play
(R81 to R89), and that it leaves the other outputs and the tones. -/

namespace Sys2Proof.Machine

/-! ## Outputs where the claims stand -/

theorem out_of_za {s t : State} (h : t.za = s.za) (o : Output) : t.out o = s.out o := by
  simp [State.out, h]

@[simp] theorem out_countN (s : State) (c : Counter) (k : Nat) (o : Output) : (s.countN c k).out o = s.out o := rfl

@[simp] theorem out_count (s : State) (c : Counter) (o : Output) : (s.count c).out o = s.out o := rfl

@[simp] theorem out_setScan (s : State) (v : Scan) (o : Output) : (s.setScan v).out o = s.out o := rfl

@[simp] theorem out_setCall (s : State) (r : Fin 8) (c : Option Call) (o : Output) : (s.setCall r c).out o = s.out o :=
  rfl

@[simp] theorem out_setDrill (s : State) (d : Option Drill) (o : Output) : (s.setDrill d).out o = s.out o := rfl

@[simp] theorem out_mapRoll (s : State) (f : RollCall → RollCall) (o : Output) : (s.mapRoll f).out o = s.out o := rfl

@[simp] theorem out_raise (s : State) (c : NoticeClass) (k : Nat) (a : List Byte) (o : Output) :
    (s.raise c k a).out o = s.out o := out_of_za (by simp) o

@[simp] theorem out_settleScan (s : State) (o : Output) : (settleScan s).out o = s.out o := out_of_za (by simp) o

@[simp] theorem out_elapse (s : State) (dt : Nat) (o : Output) : (s.elapse dt).out o = s.out o := out_of_za (by simp) o

@[simp] theorem out_arrived (s : State) (dt : Nat) (h : Hdr) (o : Output) : (s.arrived dt h).out o = s.out o :=
  out_of_za (by simp) o

@[simp] theorem out_copyDown (s : State) (q : QueueId) (f : Frame) (w : Word32) (g : Origin) (o : Output) :
    (s.copyDown q f w g).out o = s.out o := out_of_za (by simp) o

@[simp] theorem setOut_tones (s : State) (o : Output) (v : OutputState) : (s.setOut o v).za.tones = s.za.tones := rfl

/-- A write of one output shows there, and every other reads as before. -/
theorem out_setOut (s : State) (o r : Output) (v : OutputState) :
    (s.setOut o v).out r = if r = o then v else s.out r := by
  split
  · next h => rw [h, State.out_setOut_self]
  · next h => rw [State.out_setOut_ne s v h]

/-- An operation on one output of a list after the other, each leaving the outputs it does not name, leaves the outputs
that the list does not name. -/
theorem foldl_out_ne {g : State → Output → State} (hg : ∀ (s : State) (o r : Output), r ≠ o → (g s o).out r = s.out r)
    {os : List Output} {r : Output} (h : r ∉ os) (s : State) : (os.foldl g s).out r = s.out r := by
  induction os generalizing s with
  | nil => rfl
  | cons o os ih =>
    obtain ⟨ho, hos⟩ : r ≠ o ∧ r ∉ os := by simpa using h
    rw [List.foldl_cons, ih hos, hg s o r ho]

/-! ## What a claim list and a force state keep (R86, R89, R109) -/

theorem settleClip_out_ne (s : State) {o r : Output} (h : r ≠ o) : (s.settleClip o).out r = s.out r := by
  unfold State.settleClip
  split
  · dsimp only
    split
    · rw [out_count, State.out_setOut_ne _ _ h]
    · rfl
  · rfl

/-- R109: settling a clipped frame touches the note of the clip alone: a page that plays goes on playing. -/
theorem settleClip_out_self (s : State) (o : Output) :
    ∃ v c, (s.settleClip o).out o = { s.out o with play := v, clipped := c } ∧
      (v = (s.out o).play ∨ ∃ gz level t, (s.out o).play = .page gz level t ∧ v = .page gz level none) := by
  unfold State.settleClip
  split
  · next gz level t r hp hw =>
    dsimp only
    split
    · exact ⟨_, _, by rw [out_count, State.out_setOut_self], .inr ⟨gz, level, some t, hp, rfl⟩⟩
    · exact ⟨_, _, rfl, .inl rfl⟩
  · exact ⟨_, _, rfl, .inl rfl⟩

@[simp] theorem settleClip_out (s : State) (o r : Output) :
    ((s.settleClip o).out r).claims = (s.out r).claims ∧ ((s.settleClip o).out r).force = (s.out r).force ∧
    ((s.settleClip o).out r).winner = (s.out r).winner := by
  by_cases h : r = o
  · obtain ⟨v, c, hv, -⟩ := settleClip_out_self s o
    simp [h, hv]
  · simp [settleClip_out_ne s h]

@[simp] theorem settleClip_tones (s : State) (o : Output) : (s.settleClip o).za.tones = s.za.tones := by
  unfold State.settleClip
  split
  · dsimp only
    split <;> simp
  · rfl

theorem stopPlay_out_ne (s : State) {o r : Output} (h : r ≠ o) : (s.stopPlay o).out r = s.out r := by
  rw [State.stopPlay, State.out_setOut_ne _ _ h, settleClip_out_ne s h]

@[simp] theorem stopPlay_out (s : State) (o r : Output) :
    ((s.stopPlay o).out r).claims = (s.out r).claims ∧ ((s.stopPlay o).out r).force = (s.out r).force ∧
    ((s.stopPlay o).out r).winner = (s.out r).winner := by
  by_cases h : r = o
  · simp [State.stopPlay, h]
  · simp [stopPlay_out_ne s h]

/-- R89: an output that is stopped is silent. -/
@[simp] theorem stopPlay_play (s : State) (o : Output) : ((s.stopPlay o).out o).play = .silent := by
  simp [State.stopPlay]

@[simp] theorem stopPlay_tones (s : State) (o : Output) : (s.stopPlay o).za.tones = s.za.tones := by
  simp [State.stopPlay]

theorem takeOutput_out_ne (s : State) {o r : Output} (h : r ≠ o) : (s.takeOutput o).out r = s.out r := by
  rw [State.takeOutput, State.out_setOut_ne _ _ h, stopPlay_out_ne s h]

@[simp] theorem takeOutput_out (s : State) (o r : Output) :
    ((s.takeOutput o).out r).claims = (s.out r).claims ∧ ((s.takeOutput o).out r).force = (s.out r).force ∧
    ((s.takeOutput o).out r).winner = (s.out r).winner := by
  by_cases h : r = o
  · simp [State.takeOutput, h]
  · simp [takeOutput_out_ne s h]

@[simp] theorem takeOutput_tones (s : State) (o : Output) : (s.takeOutput o).za.tones = s.za.tones := by
  simp [State.takeOutput]

/-! ## The choice of winner (R84) -/

theorem rechoose_out_ne (s : State) {o r : Output} (h : r ≠ o) : (s.rechoose o).out r = s.out r := by
  unfold State.rechoose
  split
  · rfl
  · rw [takeOutput_out_ne _ h, State.out_setOut_ne _ _ h, stopPlay_out_ne s h]

/-- R84: a choice of winner leaves every claim list and every force state. -/
@[simp] theorem rechoose_out (s : State) (o r : Output) :
    ((s.rechoose o).out r).claims = (s.out r).claims ∧ ((s.rechoose o).out r).force = (s.out r).force := by
  by_cases h : r = o
  · unfold State.rechoose
    split
    · simp
    · simp [h]
  · simp [rechoose_out_ne s h]

@[simp] theorem rechoose_tones (s : State) (o : Output) : (s.rechoose o).za.tones = s.za.tones := by
  unfold State.rechoose
  split <;> simp

@[simp] theorem foldl_rechoose_out (os : List Output) (s : State) (r : Output) :
    ((os.foldl State.rechoose s).out r).claims = (s.out r).claims ∧
    ((os.foldl State.rechoose s).out r).force = (s.out r).force :=
  ⟨foldl_part (fun s => (s.out r).claims) (by simp) os s, foldl_part (fun s => (s.out r).force) (by simp) os s⟩

theorem foldl_rechoose_out_ne {os : List Output} {r : Output} (h : r ∉ os) (s : State) :
    (os.foldl State.rechoose s).out r = s.out r :=
  foldl_out_ne (fun s _ _ hr => rechoose_out_ne s hr) h s

@[simp] theorem rechooseAll_out (os : List Output) (s : State) (r : Output) :
    ((rechooseAll os s).out r).claims = (s.out r).claims ∧ ((rechooseAll os s).out r).force = (s.out r).force := by
  simp [rechooseAll]

theorem rechooseAll_out_ne {os : List Output} {r : Output} (h : r ∉ os) (s : State) :
    (rechooseAll os s).out r = s.out r := by
  rw [rechooseAll, out_settleScan, foldl_rechoose_out_ne h]

@[simp] theorem rechooseAll_tones (os : List Output) (s : State) : (rechooseAll os s).za.tones = s.za.tones := by
  simp only [rechooseAll, settleScan_keeps]
  exact foldl_part (fun s => s.za.tones) (by simp) os s

/-! ## Claims that join and leave (R81, R82) -/

theorem dropClaim_out_ne (s : State) (src : Source) {o r : Output} (h : r ≠ o) : (s.dropClaim src o).out r = s.out r := by
  unfold State.dropClaim
  split
  · dsimp only
    rw [State.out_setOut_ne _ _ h]
    split
    · rw [State.out_setOut_ne _ _ h, stopPlay_out_ne s h]
    · rfl
  · rfl

/-- R82: after a release the list holds every claim but those of the source. -/
@[simp] theorem dropClaim_claims_self (s : State) (src : Source) (o : Output) :
    ((s.dropClaim src o).out o).claims = (s.out o).claims.filter (fun d => decide (d.source ≠ src)) := by
  unfold State.dropClaim
  split
  · dsimp only
    rw [State.out_setOut_self]
    split <;> simp
  · next h =>
    rw [List.filter_eq_self.mpr]
    intro d hd
    simp only [List.any_eq_true, decide_eq_true_eq, not_exists, not_and] at h
    simpa using h d hd

@[simp] theorem dropClaim_force (s : State) (src : Source) (o r : Output) :
    ((s.dropClaim src o).out r).force = (s.out r).force := by
  by_cases h : r = o
  · subst h
    unfold State.dropClaim
    split
    · dsimp only
      rw [State.out_setOut_self]
      split <;> simp
    · rfl
  · rw [dropClaim_out_ne s src h]

@[simp] theorem dropClaim_tones (s : State) (src : Source) (o : Output) : (s.dropClaim src o).za.tones = s.za.tones := by
  unfold State.dropClaim
  split
  · dsimp only
    split <;> simp
  · rfl

theorem addClaim_out_ne (s : State) (c : Claim) {o r : Output} (h : r ≠ o) : (s.addClaim c o).out r = s.out r := by
  have hadd : ((s.dropClaim c.source o).setOut o { (s.dropClaim c.source o).out o with
      claims := ((s.dropClaim c.source o).out o).claims ++ [c] }).out r = s.out r := by
    rw [State.out_setOut_ne _ _ h, dropClaim_out_ne s _ h]
  unfold State.addClaim
  dsimp only
  split <;> simpa using hadd

/-- R81: a claim that joins stands last, in place of an earlier claim of its source. -/
@[simp] theorem addClaim_claims_self (s : State) (c : Claim) (o : Output) :
    ((s.addClaim c o).out o).claims = (s.out o).claims.filter (fun d => decide (d.source ≠ c.source)) ++ [c] := by
  unfold State.addClaim
  dsimp only
  split <;> simp

@[simp] theorem addClaim_force (s : State) (c : Claim) (o r : Output) :
    ((s.addClaim c o).out r).force = (s.out r).force := by
  by_cases h : r = o
  · subst h
    unfold State.addClaim
    dsimp only
    split <;> simp
  · rw [addClaim_out_ne s c h]

@[simp] theorem addClaim_tones (s : State) (c : Claim) (o : Output) : (s.addClaim c o).za.tones = s.za.tones := by
  unfold State.addClaim
  dsimp only
  split <;> simp

/-! ## Claims on a set of outputs -/

theorem foldl_dropClaim_out_ne {os : List Output} {r : Output} (h : r ∉ os) (src : Source) (s : State) :
    (os.foldl (fun s o => s.dropClaim src o) s).out r = s.out r :=
  foldl_out_ne (fun s _ _ hr => dropClaim_out_ne s src hr) h s

theorem foldl_addClaim_out_ne {os : List Output} {r : Output} (h : r ∉ os) (c : Claim) (s : State) :
    (os.foldl (fun s o => s.addClaim c o) s).out r = s.out r :=
  foldl_out_ne (fun s _ _ hr => addClaim_out_ne s c hr) h s

/-- R82: a release on a set leaves no claim of the source there, and every claim of another. -/
theorem foldl_dropClaim_claims {os : List Output} {r : Output} (h : r ∈ os) (src : Source) (s : State) :
    ((os.foldl (fun s o => s.dropClaim src o) s).out r).claims =
      (s.out r).claims.filter (fun d => decide (d.source ≠ src)) := by
  induction os generalizing s with
  | nil => simp at h
  | cons o os ih =>
    rw [List.foldl_cons]
    by_cases hr : r ∈ os
    · rw [ih hr]
      by_cases ho : r = o
      · subst ho
        simp [List.filter_filter]
      · rw [dropClaim_out_ne s src ho]
    · obtain rfl : r = o := by simpa [hr] using h
      rw [foldl_dropClaim_out_ne hr, dropClaim_claims_self]

/-- R81: a claim placed on a set stands last in each of its lists, in place of an earlier claim of its source. -/
theorem foldl_addClaim_claims {os : List Output} {r : Output} (h : r ∈ os) (c : Claim) (s : State) :
    ((os.foldl (fun s o => s.addClaim c o) s).out r).claims =
      (s.out r).claims.filter (fun d => decide (d.source ≠ c.source)) ++ [c] := by
  induction os generalizing s with
  | nil => simp at h
  | cons o os ih =>
    rw [List.foldl_cons]
    by_cases hr : r ∈ os
    · rw [ih hr]
      by_cases ho : r = o
      · subst ho
        simp [List.filter_filter]
      · rw [addClaim_out_ne s c ho]
    · obtain rfl : r = o := by simpa [hr] using h
      rw [foldl_addClaim_out_ne hr, addClaim_claims_self]

@[simp] theorem foldl_dropClaim_tones (os : List Output) (src : Source) (s : State) :
    (os.foldl (fun s o => s.dropClaim src o) s).za.tones = s.za.tones :=
  foldl_part (fun s => s.za.tones) (by simp) os s

@[simp] theorem foldl_addClaim_tones (os : List Output) (c : Claim) (s : State) :
    (os.foldl (fun s o => s.addClaim c o) s).za.tones = s.za.tones :=
  foldl_part (fun s => s.za.tones) (by simp) os s

end Sys2Proof.Machine

/-! PROOFS. What every step keeps of claims, winners and silences (R81, R82, R84, R89). A batch of changes to claims, force
states and mutes leaves the choice of winner open on the outputs it names, and the choice that ends it settles them. -/

namespace Sys2Proof.Machine

/-! ## The invariant, with outputs on which the choice is open -/

/-- R81, R84, R89: claims are distinct and silences kept, and on every output but those named the winner is the one chosen. -/
structure State.SettledOff (os : List Output) (s : State) : Prop where
  distinct : s.claimsDistinct
  silent   : s.silencesKept
  chosen   : ∀ o, o ∉ os → (s.out o).winner = (s.choice o).map (·.source)

/-- R84: the choice looks at the output's claims and force state, at the mutes and at its EVAC setting. -/
theorem choice_congr {s t : State} {o : Output} (hc : (t.out o).claims = (s.out o).claims)
    (hf : (t.out o).force = (s.out o).force) (hfire : t.fireMute = s.fireMute) (hdrill : t.drillMute = s.drillMute)
    (hevac : (t.attr o).evac = (s.attr o).evac) : t.choice o = s.choice o := by
  simp only [State.choice, State.blocked, hc, hf, hfire, hdrill, hevac]

theorem fireMute_of_fdc {s t : State} (h : t.fdc = s.fdc) : t.fireMute = s.fireMute := by simp [State.fireMute, h]

theorem drillMute_of_fdc {s t : State} (h : t.fdc = s.fdc) : t.drillMute = s.drillMute := by simp [State.drillMute, h]

theorem attr_of_zm {s t : State} (h : t.zm = s.zm) (o : Output) : t.attr o = s.attr o := by simp [State.attr, h]

theorem choice_of_parts {s t : State} {o : Output} (hc : (t.out o).claims = (s.out o).claims)
    (hf : (t.out o).force = (s.out o).force) (hfdc : t.fdc = s.fdc) (hzm : t.zm = s.zm) : t.choice o = s.choice o :=
  choice_congr hc hf (fireMute_of_fdc hfdc) (drillMute_of_fdc hfdc) (by rw [attr_of_zm hzm])

/-- R84: to stop an output and name its winner changes no choice there. -/
theorem choice_setWinner (s : State) (o : Output) (w : Option Source) :
    ((s.stopPlay o).setOut o { (s.stopPlay o).out o with winner := w }).choice o = s.choice o :=
  choice_of_parts (by simp) (by simp) (by simp) (by simp)

theorem circ_of_records {s t : State} (h : t.csv.records = s.csv.records) (c : Circuit) : t.circ c = s.circ c := by
  simp [State.circ, h]

theorem isolated_of_circ {s t : State} {o : Output} (h : t.circ (circuitOf o) = s.circ (circuitOf o)) :
    t.isolated o = s.isolated o := by
  simp [State.isolated, h]

theorem isolated_of_records {s t : State} (h : t.csv.records = s.csv.records) (o : Output) :
    t.isolated o = s.isolated o := isolated_of_circ (circ_of_records h _)

namespace State.SettledOff

variable {os : List Output} {s t : State}

theorem settled (h : s.SettledOff []) : s.claimsDistinct ∧ s.winnersChosen ∧ s.silencesKept :=
  ⟨h.distinct, fun o => h.chosen o (by simp), h.silent⟩

/-- The invariant holds off more outputs as well. -/
theorem mono {more : List Output} (h : s.SettledOff os) (hsub : os ⊆ more) : s.SettledOff more :=
  ⟨h.distinct, h.silent, fun o ho => h.chosen o (fun hin => ho (hsub hin))⟩

/-- Where outputs, mutes and attributes stand and no output becomes isolated, the invariant stands. -/
theorem of_outs (h : s.SettledOff os) (hout : ∀ o, t.out o = s.out o)
    (hiso : ∀ o, t.isolated o = true → s.isolated o = true) (hfire : t.fireMute = s.fireMute)
    (hdrill : t.drillMute = s.drillMute) (hevac : ∀ o, o ∉ os → (t.attr o).evac = (s.attr o).evac) :
    t.SettledOff os where
  distinct o := by rw [hout]; exact h.distinct o
  silent o ho := by
    rw [hout] at ho ⊢
    exact h.silent o (ho.imp_left (hiso o))
  chosen o ho := by
    rw [choice_congr (by rw [hout]) (by rw [hout]) hfire hdrill (hevac o ho), hout]
    exact h.chosen o ho

/-- The invariant is about the arbiter, the zone map, the circuit records and the mutes, and about nothing else. -/
theorem of_parts (h : s.SettledOff os) (hza : t.za = s.za) (hzm : t.zm = s.zm) (hfdc : t.fdc = s.fdc)
    (hrec : t.csv.records = s.csv.records) : t.SettledOff os :=
  h.of_outs (out_of_za hza) (fun o => by rw [isolated_of_records hrec]; exact id) (fireMute_of_fdc hfdc)
    (drillMute_of_fdc hfdc) (fun o _ => by rw [attr_of_zm hzm])

/-- A change of one output keeps the invariant where it keeps it there, and settles that output where it chooses there. -/
theorem of_out {o : Output} (h : s.SettledOff (o :: os)) (hne : ∀ r, r ≠ o → t.out r = s.out r)
    (hzm : t.zm = s.zm) (hfdc : t.fdc = s.fdc) (hrec : t.csv.records = s.csv.records)
    (hdistinct : (t.out o).claims.Pairwise (fun a b => a.source ≠ b.source))
    (hsilent : s.isolated o = true ∨ (t.out o).winner = none → (t.out o).play = .silent)
    (hchosen : o ∉ os → (t.out o).winner = (t.choice o).map (·.source)) : t.SettledOff os where
  distinct r := by
    by_cases hr : r = o
    · exact hr ▸ hdistinct
    · rw [hne r hr]; exact h.distinct r
  silent r := by
    rw [isolated_of_records hrec]
    by_cases hr : r = o
    · exact hr ▸ hsilent
    · rw [hne r hr]; exact h.silent r
  chosen r hos := by
    by_cases hr : r = o
    · exact hr ▸ hchosen (hr ▸ hos)
    · rw [choice_of_parts (by rw [hne r hr]) (by rw [hne r hr]) hfdc hzm, hne r hr]
      exact h.chosen r (by simp [hr, hos])

/-- A change of what one output plays keeps the invariant where the output is silent when it must be. -/
theorem of_play {o : Output} (h : s.SettledOff os) (hne : ∀ r, r ≠ o → t.out r = s.out r)
    (hkept : (t.out o).claims = (s.out o).claims ∧ (t.out o).force = (s.out o).force ∧
      (t.out o).winner = (s.out o).winner)
    (hzm : t.zm = s.zm) (hfdc : t.fdc = s.fdc) (hrec : t.csv.records = s.csv.records)
    (hsilent : s.isolated o = true ∨ (s.out o).winner = none → (t.out o).play = .silent) : t.SettledOff os := by
  obtain ⟨hclaims, hforce, hwinner⟩ := hkept
  refine (h.mono (by simp)).of_out hne hzm hfdc hrec (hclaims ▸ h.distinct o) (hwinner ▸ hsilent) (fun ho => ?_)
  rw [choice_of_parts hclaims hforce hfdc hzm, hwinner]
  exact h.chosen o ho

theorem count (h : s.SettledOff os) (c : Counter) : (s.count c).SettledOff os := h.of_parts rfl rfl rfl rfl

theorem raise (h : s.SettledOff os) (c : NoticeClass) (k : Nat) (a : List Byte) : (s.raise c k a).SettledOff os :=
  h.of_parts (by simp) (by simp) (by simp) (by simp)

theorem settleScan (h : s.SettledOff os) : (settleScan s).SettledOff os :=
  h.of_parts (by simp) (by simp) (by simp) (by simp)

theorem foldl {α : Type} {g : State → α → State} {l : List α} (h : s.SettledOff os)
    (hg : ∀ a ∈ l, ∀ s : State, s.SettledOff os → (g s a).SettledOff os) : (l.foldl g s).SettledOff os := by
  induction l generalizing s with
  | nil => exact h
  | cons a l ih => exact ih (hg a (by simp) s h) (fun b hb => hg b (by simp [hb]))

/-! ## The operations of the arbiter -/

/-- R109: settling a clip leaves a silent output silent. -/
theorem settleClip (h : s.SettledOff os) (o : Output) : (s.settleClip o).SettledOff os := by
  refine h.of_play (fun r hr => settleClip_out_ne s hr) (by simp) (by simp) (by simp) (by simp) (fun hs => ?_)
  have hsilent := h.silent o hs
  obtain ⟨v, c, hv, rfl | ⟨gz, level, t, hp, -⟩⟩ := settleClip_out_self s o
  · rw [hv]; exact hsilent
  · simp [hsilent] at hp

theorem stopPlay (h : s.SettledOff os) (o : Output) : (s.stopPlay o).SettledOff os :=
  h.of_play (fun r hr => stopPlay_out_ne s hr) (by simp) (by simp) (by simp) (by simp) (fun _ => by simp)

/-- R86, R89: the winner takes the output, unless it is isolated. -/
theorem takeOutput (h : s.SettledOff os) (o : Output) : (s.takeOutput o).SettledOff os := by
  refine h.of_play (fun r hr => takeOutput_out_ne s hr) (by simp) (by simp) (by simp) (by simp) (fun hs => ?_)
  rw [State.takeOutput, out_setOut_self]
  dsimp only
  unfold State.winnerPlay
  rw [isolated_of_records (s := s) (by simp)]
  obtain hs | hs := hs
  · simp [hs]
  · simp [OutputState.winning, hs]

/-- R84: the choice of winner on an output settles it. -/
theorem rechoose {o : Output} (h : s.SettledOff (o :: os)) : (s.rechoose o).SettledOff os := by
  unfold State.rechoose
  split
  · next heq =>
    refine ⟨h.distinct, h.silent, fun r hr => ?_⟩
    by_cases hro : r = o
    · rw [hro, heq]
    · exact h.chosen r (by simp [hro, hr])
  · refine takeOutput ((h.stopPlay o).of_out (o := o) (fun r hr => out_setOut_ne _ _ hr) rfl rfl rfl ?_ ?_ ?_) o
    · simpa using h.distinct o
    · simp
    · intro _
      rw [choice_setWinner]
      simp

/-- R82: one choice of winner for every output of a batch settles the batch. -/
theorem rechooseAll (h : s.SettledOff os) : (rechooseAll os s).SettledOff [] := by
  refine settleScan ?_
  induction os generalizing s with
  | nil => exact h
  | cons o os ih => exact ih h.rechoose

/-- R82: a claim leaves the list of an output on which the choice is open. -/
theorem dropClaim {o : Output} (h : s.SettledOff os) (ho : o ∈ os) (src : Source) : (s.dropClaim src o).SettledOff os := by
  refine (h.mono (by simp)).of_out (o := o) (fun r hr => dropClaim_out_ne s src hr) (by simp) (by simp) (by simp) ?_ ?_
    (fun hn => absurd ho hn)
  · rw [dropClaim_claims_self]
    exact (h.distinct o).filter _
  · have hsilent := h.silent o
    unfold State.dropClaim
    split
    · dsimp only
      rw [out_setOut_self]
      split
      · simp
      · exact hsilent
    · exact hsilent

/-- R81: a claim joins the list of an output on which the choice is open. -/
theorem addClaim {o : Output} (h : s.SettledOff os) (ho : o ∈ os) (c : Claim) : (s.addClaim c o).SettledOff os := by
  have hdrop := h.dropClaim ho c.source
  have hadd : ((s.dropClaim c.source o).setOut o { (s.dropClaim c.source o).out o with
      claims := ((s.dropClaim c.source o).out o).claims ++ [c] }).SettledOff os := by
    refine (hdrop.mono (by simp)).of_out (o := o) (fun r hr => out_setOut_ne _ _ hr) rfl rfl rfl ?_ ?_ (fun hn => absurd ho hn)
    · rw [out_setOut_self]
      simp only [dropClaim_claims_self, List.pairwise_append, List.mem_filter, decide_eq_true_eq]
      exact ⟨(h.distinct o).filter _, by simp, fun a ha b hb => by simp_all⟩
    · rw [out_setOut_self]
      exact hdrop.silent o
  unfold State.addClaim
  dsimp only
  split
  · exact hadd.count _
  · exact hadd

/-- R91: a force state changes on an output on which the choice is open. -/
theorem setForce {o : Output} (h : s.SettledOff os) (ho : o ∈ os) (f : ForceState) : (s.setForce o f).SettledOff os := by
  refine (h.mono (by simp)).of_out (o := o) (fun r hr => out_setOut_ne _ _ hr) rfl rfl rfl ?_ ?_ (fun hn => absurd ho hn)
  · rw [State.setForce, out_setOut_self]
    exact h.distinct o
  · rw [State.setForce, out_setOut_self]
    exact h.silent o

end State.SettledOff

end Sys2Proof.Machine

/-! PROOFS. What the clock lines leave of the circuits (R125 to R134): their events move the scan, and no configuration and
no record of a circuit. -/

namespace Sys2Proof.Machine

/-- A reading of the state that each operation of a list keeps is kept by them all, the list being of any elements. -/
theorem foldl_csv {α : Type} {g : State → α → State}
    (h : ∀ s a, (g s a).csv.records = s.csv.records ∧ (g s a).csv.cfg = s.csv.cfg) (l : List α) (s : State) :
    (l.foldl g s).csv.records = s.csv.records ∧ (l.foldl g s).csv.cfg = s.csv.cfg :=
  ⟨foldl_part (fun s => s.csv.records) (fun s a => (h s a).1) l s,
    foldl_part (fun s => s.csv.cfg) (fun s a => (h s a).2) l s⟩

@[simp] theorem rechooseAll_csv (os : List Output) (s : State) :
    (rechooseAll os s).csv.records = s.csv.records ∧ (rechooseAll os s).csv.cfg = s.csv.cfg := by
  simp [rechooseAll]

@[simp] theorem startPulse_csv (s : State) (k : LineNo) :
    (s.startPulse k).csv.records = s.csv.records ∧ (s.startPulse k).csv.cfg = s.csv.cfg := by
  simp [State.startPulse]

@[simp] theorem pulseOrWait_csv (s : State) (k : LineNo) :
    (s.pulseOrWait k).csv.records = s.csv.records ∧ (s.pulseOrWait k).csv.cfg = s.csv.cfg := by
  unfold State.pulseOrWait
  dsimp only
  (repeat' split) <;> simp

@[simp] theorem evaluate_csv (s : State) (k : LineNo) :
    (s.evaluate k).csv.records = s.csv.records ∧ (s.evaluate k).csv.cfg = s.csv.cfg := by
  unfold State.evaluate
  dsimp only
  (repeat' split) <;> simp

@[simp] theorem endPulse_csv (s : State) (k : LineNo) (pol : Polarity) (b : Bool) :
    (s.endPulse k pol b).csv.records = s.csv.records ∧ (s.endPulse k pol b).csv.cfg = s.csv.cfg := by
  unfold State.endPulse
  dsimp only
  split <;> simp

@[simp] theorem typeChange_csv (s : State) (k : LineNo) :
    (s.typeChange k).csv.records = s.csv.records ∧ (s.typeChange k).csv.cfg = s.csv.cfg := by
  unfold State.typeChange
  dsimp only
  split <;> simp

@[simp] theorem clockCfgChanged_csv (s : State) (k : LineNo) (old : ClockCfg) :
    (s.clockCfgChanged k old).csv.records = s.csv.records ∧ (s.clockCfgChanged k old).csv.cfg = s.csv.cfg := by
  unfold State.clockCfgChanged
  (repeat' split) <;> simp

@[simp] theorem changeClocks_csv (start : Nat) (rs : List (Option ClockCfg)) (s : State) :
    (s.changeClocks start rs).csv.records = s.csv.records ∧ (s.changeClocks start rs).csv.cfg = s.csv.cfg := by
  unfold State.changeClocks
  exact foldl_csv (g := fun t k => t.clockCfgChanged k (s.clockCfg k)) (by simp) _ _

@[simp] theorem resync_csv (s : State) (k : LineNo) (i : Nat) (pol : Option Polarity) :
    (s.resync k i pol).csv.records = s.csv.records ∧ (s.resync k i pol).csv.cfg = s.csv.cfg := by
  simp [State.resync]

@[simp] theorem resyncClock_csv (tag line : Byte) (position : Word16) (polarity : Byte) (s : State) :
    (s.resyncClock tag line position polarity).csv.records = s.csv.records ∧
    (s.resyncClock tag line position polarity).csv.cfg = s.csv.cfg := by
  unfold State.resyncClock State.takeResync
  dsimp only
  (repeat' split) <;> simp

@[simp] theorem scanAfterWrite_csv (s : State) (before : Scan) (b : Bool) :
    (s.scanAfterWrite before b).csv.records = s.csv.records ∧ (s.scanAfterWrite before b).csv.cfg = s.csv.cfg := by
  unfold State.scanAfterWrite
  (repeat' split) <;> simp [State.setScan]

@[simp] theorem stepBoundary_csv (s : State) (k : Nat) :
    (s.stepBoundary k).csv.records = s.csv.records ∧ (s.stepBoundary k).csv.cfg = s.csv.cfg := by
  unfold State.stepBoundary
  exact foldl_csv (fun s l => by (repeat' split) <;> simp) _ _

@[simp] theorem evaluateAll_csv (s : State) :
    (s.evaluateAll).csv.records = s.csv.records ∧ (s.evaluateAll).csv.cfg = s.csv.cfg := by
  unfold State.evaluateAll
  exact foldl_csv (fun s l => by split <;> simp) _ _

@[simp] theorem startEvent_csv (s : State) :
    (s.startEvent).csv.records = s.csv.records ∧ (s.startEvent).csv.cfg = s.csv.cfg := by
  simp [State.startEvent]

end Sys2Proof.Machine

/-! PROOFS. What the steps of the blocks keep of claims, winners and silences (R81, R82, R84, R89), block by block. -/

namespace Sys2Proof.Machine

/-! ## Circuits and outputs -/

@[simp] theorem outputOf_circuitOf (o : Output) : outputOf (circuitOf o) = some o := by
  unfold circuitOf outputOf
  split
  · simp
  · next h =>
    have h24 : 24 ≤ o.val + 8 := by omega
    have h16 : ¬ o.val + 8 < 16 := by omega
    simp [h24, h16]

@[simp] theorem outputOf_circuitOfLine (k : LineNo) : outputOf (circuitOfLine k) = none := by
  have h24 : ¬ 24 ≤ 16 + k.val := by omega
  simp [outputOf, circuitOfLine, h24]

theorem circuitOf_injective : Function.Injective circuitOf := fun o r h =>
  Option.some.inj (by rw [← outputOf_circuitOf o, h, outputOf_circuitOf])

theorem circuitOf_eq_iff {o : Output} {c : Circuit} : circuitOf o = c ↔ outputOf c = some o := by
  constructor
  · rintro rfl
    exact outputOf_circuitOf o
  · intro h
    unfold outputOf at h
    split at h
    · obtain rfl := Option.some.inj h
      simp_all [circuitOf]
    · split at h
      · obtain rfl := Option.some.inj h
        have hc : ¬ c.val - 8 < 16 := by omega
        ext
        simp only [circuitOf, hc, dite_false]
        omega
      · cases h

/-- R89: writing the record of a circuit can isolate the output of that circuit alone. -/
theorem isolated_setCirc (s : State) (c : Circuit) (v : CircRecord) (o : Output) :
    (s.setCirc c v).isolated o =
      if circuitOf o = c then decide (v.state = .fault) && v.isolated else s.isolated o := by
  unfold State.isolated
  split
  · next h => rw [h, State.circ_setCirc_self]
  · next h => rw [State.circ_setCirc_ne s v h]

theorem startOutcome_armed {s : State} {id day : Word16} {ms : Nat} (h : s.startOutcome id day ms = .armed) :
    s.fdc.drill = none := by
  unfold State.startOutcome at h
  split at h
  · split at h <;> cases h
  · assumption

namespace State.SettledOff

variable {os : List Output} {s t : State}

/-! ## The circuits (R144 to R150) -/

/-- R89: a record that isolates no output anew keeps the invariant. -/
theorem setCirc (h : s.SettledOff os) {c : Circuit} {v : CircRecord}
    (hv : v.state = .fault → v.isolated = true → (s.circ c).state = .fault ∧ (s.circ c).isolated = true) :
    (s.setCirc c v).SettledOff os := by
  refine h.of_outs (fun _ => rfl) (fun o ho => ?_) rfl rfl (fun _ _ => rfl)
  rw [isolated_setCirc] at ho
  split at ho
  · next hc =>
    rw [Bool.and_eq_true, decide_eq_true_eq] at ho
    obtain ⟨hf, hi⟩ := hv ho.1 ho.2
    simp [State.isolated, hc, hf, hi]
  · exact ho

/-- R89: an output that is silenced may be isolated. -/
theorem of_silenced {o : Output} (h : s.SettledOff os) (hne : ∀ r, r ≠ o → t.out r = s.out r)
    (hkept : (t.out o).claims = (s.out o).claims ∧ (t.out o).force = (s.out o).force ∧
      (t.out o).winner = (s.out o).winner)
    (hzm : t.zm = s.zm) (hfdc : t.fdc = s.fdc) (hiso : ∀ r, r ≠ o → t.isolated r = s.isolated r)
    (hsilent : (t.out o).play = .silent) : t.SettledOff os := by
  obtain ⟨hclaims, hforce, hwinner⟩ := hkept
  refine ⟨fun r => ?_, fun r hr => ?_, fun r hr => ?_⟩ <;> by_cases hro : r = o
  · rw [hro, hclaims]; exact h.distinct o
  · rw [hne r hro]; exact h.distinct r
  · rw [hro, hsilent]
  · rw [hne r hro] at hr ⊢
    rw [hiso r hro] at hr
    exact h.silent r hr
  · subst hro
    rw [choice_of_parts hclaims hforce hfdc hzm, hwinner]
    exact h.chosen r hr
  · rw [choice_of_parts (by rw [hne r hro]) (by rw [hne r hro]) hfdc hzm, hne r hro]
    exact h.chosen r hr

theorem evaluate (h : s.SettledOff os) (k : LineNo) : (s.evaluate k).SettledOff os :=
  h.of_parts (by simp) (by simp) (by simp) (by simp)

theorem endPulse (h : s.SettledOff os) (k : LineNo) (pol : Polarity) (b : Bool) : (s.endPulse k pol b).SettledOff os :=
  h.of_parts (by simp) (by simp) (by simp) (by simp)

theorem scanNext (h : s.SettledOff os) (c : Circuit) : (s.scanNext c).SettledOff os :=
  h.of_parts (by simp) (by simp) (by simp) (by simp)

theorem scanAfterWrite (h : s.SettledOff os) (before : Scan) (b : Bool) : (s.scanAfterWrite before b).SettledOff os :=
  h.of_parts (by simp) (by simp) (by simp) (by simp)

theorem reply (h : s.SettledOff os) (tag req : Byte) (st : Status) (r : List Byte) :
    (s.reply tag req st r).SettledOff os :=
  h.of_parts (by simp) (by simp) (by simp) (by simp)

/-- R145, R149: an entry to FAULT silences the output that it isolates. -/
theorem enterFault (h : s.SettledOff os) (c : Circuit) (kind : FaultKind) (reading : Byte) (isolate fromPulse : Bool)
    (hiso : isolate = true → (outputOf c).isSome = true) :
    (s.enterFault c kind reading isolate fromPulse).SettledOff os := by
  unfold State.enterFault
  dsimp only
  generalize hu : State.raise _ _ _ _ = u
  have hout : ∀ o, u.out o = s.out o := fun o => by simp [← hu, State.out]
  have hzm : u.zm = s.zm := by simp [← hu]
  have hfdc : u.fdc = s.fdc := by simp [← hu]
  have hcirc : ∀ d, u.circ d = (s.setCirc c ⟨.fault, 0, some kind, isolate, false, some reading⟩).circ d :=
    fun d => circ_of_records (by simp [← hu]) d
  have huiso : ∀ o, u.isolated o = if circuitOf o = c then isolate else s.isolated o := fun o => by
    rw [isolated_of_circ (hcirc _), isolated_setCirc]
    simp
  have hopen : isolate = false → u.SettledOff os := fun hf =>
    h.of_outs hout (fun o ho => by rw [huiso] at ho; split at ho <;> simp_all) (fireMute_of_fdc hfdc)
      (drillMute_of_fdc hfdc) (fun o _ => by rw [attr_of_zm hzm])
  have hflag : (u.circ c).isolated = isolate := by rw [hcirc]; simp
  unfold State.faultSeen
  rw [hflag]
  split
  · next o heq =>
    have hc := circuitOf_eq_iff.mpr heq
    split
    · refine settleScan (h.of_silenced (o := o) (fun r hr => ?_) ?_ ?_ ?_ (fun r hr => ?_) (by simp))
      · rw [stopPlay_out_ne _ hr, hout]
      · simp [hout]
      · simp [hzm]
      · simp [hfdc]
      · rw [isolated_of_records (s := u) (by simp), huiso, if_neg]
        rw [← hc]
        exact fun e => hr (circuitOf_injective e)
    · next hi => exact hopen (by simpa using hi)
  · next hn _ => exact (hopen (by simpa [hn] using hiso)).evaluate _
  · next hn _ => exact hopen (by simpa [hn] using hiso)

/-- R146 to R148, R150: leaving FAULT gives the output back to its winner. -/
theorem leaveFault (h : s.SettledOff os) (c : Circuit) {cr : CircRecord} (hcr : cr.isolated = false)
    (cause : RecoverCause) : (s.leaveFault c cr cause).SettledOff os := by
  have hleft := ((h.setCirc (c := c) (v := cr) (by simp [hcr])).count .circRecoveries).raise .supervision 4
    (enc8 c.val ++ enc8 cause.code ++ enc8 (kindCode (s.circ c).kind))
  unfold State.leaveFault State.faultLeft
  dsimp only
  split
  · split
    · exact (hleft.takeOutput _).settleScan
    · exact hleft
  · exact hleft.evaluate _
  · exact hleft

/-- R143 to R146: a reading is judged. -/
theorem judge (h : s.SettledOff os) (c : Circuit) (reading : Byte) : (s.judge c reading).SettledOff os := by
  have hout : ∀ kind, (s.circ c).state ≠ .fault → (s.outOfBand c kind reading).SettledOff os := fun kind hf => by
    unfold State.outOfBand
    dsimp only
    split
    · exact h.enterFault _ _ _ _ _ (by simp +contextual)
    · exact h.setCirc (by simp +contextual)
  have hfaultOut : ∀ kind, (s.circ c).state = .fault → (s.faultOutOfBand c kind reading).SettledOff os := fun kind hf => by
    unfold State.faultOutOfBand
    dsimp only
    split
    · exact h.setCirc (by simp +contextual)
    · exact (h.setCirc (by simp +contextual)).raise _ _ _
  have hinner : (s.circ c).state = .fault → (s.faultInner c reading).SettledOff os := fun hf => by
    unfold State.faultInner
    dsimp only
    split
    · exact h.leaveFault _ rfl _
    · split
      · exact h.setCirc (by simp +contextual)
      · exact (h.setCirc (by simp +contextual)).raise _ _ _
  unfold State.judge
  dsimp only
  split
  · next hf =>
    split
    · exact hfaultOut _ hf
    · split
      · exact hfaultOut _ hf
      · split
        · exact hinner hf
        · exact h.setCirc (by simp +contextual)
  · next hf =>
    split
    · exact hout _ hf
    · split
      · exact hout _ hf
      · exact h.setCirc (by simp +contextual)

/-- R149: a current fault isolates no output. -/
theorem currentFault (h : s.SettledOff os) (k : LineNo) (kind : FaultKind) (reading : Byte) :
    (s.currentFault k kind reading).SettledOff os := by
  unfold State.currentFault
  dsimp only
  split
  · exact h.enterFault _ _ _ _ _ (by simp)
  · exact h

/-- R150: a circuit is disabled. -/
theorem disable (h : s.SettledOff os) (c : Circuit) : (s.disable c).SettledOff os := by
  unfold State.disable
  split
  · exact h.leaveFault _ rfl _
  · exact h.setCirc (by simp [CircRecord.fresh])

theorem changeSups (h : s.SettledOff os) (start : Nat) (rs : List (Option SupCfg)) :
    (s.changeSups start rs).SettledOff os := by
  unfold State.changeSups
  dsimp only
  refine scanAfterWrite (foldl ?_ fun c _ s hs => hs.disable c) _ _
  exact h.of_parts rfl rfl rfl rfl

/-- R126 to R128: the in-pulse check. -/
theorem checkPulse (h : s.SettledOff os) (k : LineNo) (p : Pulse) (reading : Byte) :
    (s.checkPulse k p reading).SettledOff os := by
  unfold State.checkPulse State.pulseFault
  split
  · exact (((h.currentFault k .short reading).count _).raise _ _ _).endPulse _ _ _
  · exact (((h.of_parts (t := s.setPulse k _) rfl rfl rfl rfl).currentFault k .openLine reading).count _).raise _ _ _
  · exact h.of_parts rfl rfl rfl rfl

theorem dwellEnds (h : s.SettledOff os) (reading : Byte) : (s.dwellEnds reading).SettledOff os := by
  unfold State.dwellEnds
  split
  · split
    · exact ((h.of_parts (t := s.setScan .idle) rfl rfl rfl rfl).judge _ reading).scanNext _
    · exact h
  · exact h
  · exact h

theorem recover (h : s.SettledOff os) (tag circuit : Byte) : (s.recover tag circuit).SettledOff os := by
  unfold State.recover
  split
  · dsimp only
    split
    · split
      · exact (h.reply _ _ _ _).leaveFault _ rfl _
      · exact h.reply _ _ _ _
    · exact h.reply _ _ _ _
  · exact h.reply _ _ _ _

end State.SettledOff

end Sys2Proof.Machine

namespace Sys2Proof.Machine

@[simp] theorem mem_allOutputs (o : Output) : o ∈ allOutputs := List.mem_finRange o

/-- R113: a call that is closed leaves the zones of the other calls. -/
theorem callZones_releaseCall (s : State) (r k : Fin 8) :
    (s.releaseCall r).callZones k = if k = r then [] else s.callZones k := by
  have hcall : ∀ t : State, t.pe = s.pe → t.call k = s.call k := fun t ht => by simp [State.call, ht]
  by_cases h : k = r
  · simp [State.callZones, State.releaseCall, h]
  · simp only [State.callZones, State.releaseCall, State.call_setCall_ne _ _ h, if_neg h]
    rw [hcall _ (by simp)]

/-! ## The acts of a fire, named (R157, R158) -/

/-- R157: the entry to ACTIVE ends a drill that is held, as SUPERSEDED. -/
def State.supersede (s : State) : State :=
  match s.fdc.drill with
  | some d => (s.setDrill none).raise .drill 4 (s.drillEndedArgs d .superseded)
  | none => s

def State.setFireSet (s : State) (set : Option (List Output)) : State := { s with fdc := { s.fdc with fireSet := set } }

/-- R157: the claims of a fire: with evac on fire those of the evacuation set, else none. -/
def State.fireClaims (s : State) : State :=
  if s.mu.node.evacOnFire then
    (s.fdcClaims s.zm.resolveEvac 0 s.mu.node.firePattern).setFireSet (some s.zm.resolveEvac)
  else s.fdcRelease.setFireSet none

theorem enterFire_eq (s : State) (reading : Byte) :
    s.enterFire reading =
      let t := (s.supersede.setFire .active 0).fireClaims
      let u := t.openRoll .fire 0 none t.mu.node.fireSweeps 2
      rechooseAll allOutputs ((u.count .fireActivations).raise .fire 1 (reading :: u.campusArg)) := by
  unfold State.enterFire State.fireClaims State.supersede
  cases s.fdc.drill <;> simp only [State.setFireSet]

/-- R158: the release of the claims of a fire. -/
def State.fireRelease (s : State) : State :=
  ((s.fdc.fireSet.getD []).foldl (fun s o => s.dropClaim .fdc o) s).setFireSet none

/-- R171: the record of a fire at its return to QUIET. -/
def RollCall.fireOver (r : RollCall) : RollCall :=
  { r.close with lastPhase := 0, outcome := if r.close.missing = 0 then .complete else .incomplete }

theorem leaveFire_eq (s : State) :
    s.leaveFire =
      let t := ((s.setFire .quiet 0).fireRelease).mapRoll RollCall.fireOver
      rechooseAll allOutputs (match t.fdc.roll with
        | some r => t.raise .fire 2 (enc8 r.outcome.code ++ enc8 r.missing)
        | none => t) := rfl

namespace State.SettledOff

variable {os : List Output} {s t : State}

/-! ## The Fire and Drill Controller (R154 to R175) -/

/-- While the choice is open on every output, the mutes may change. -/
theorem of_open (h : s.SettledOff allOutputs) (hout : ∀ o, t.out o = s.out o)
    (hrec : t.csv.records = s.csv.records) : t.SettledOff allOutputs where
  distinct o := by rw [hout]; exact h.distinct o
  silent o := by rw [hout, isolated_of_records hrec]; exact h.silent o
  chosen o ho := absurd (mem_allOutputs o) ho

theorem setDrill (h : s.SettledOff allOutputs) (d : Option Drill) : (s.setDrill d).SettledOff allOutputs :=
  h.of_open (fun _ => rfl) rfl

theorem setFire (h : s.SettledOff allOutputs) (f : FireState) (k : Nat) : (s.setFire f k).SettledOff allOutputs :=
  h.of_open (fun _ => rfl) rfl

theorem setRoll (h : s.SettledOff os) (r : Option RollCall) : (s.setRoll r).SettledOff os :=
  h.of_outs (fun _ => rfl) (fun _ => id) rfl rfl (fun _ _ => rfl)

theorem mapRoll (h : s.SettledOff os) (f : RollCall → RollCall) : (s.mapRoll f).SettledOff os := h.setRoll _

theorem openRoll (h : s.SettledOff os) (kind : RollKind) (id : Word16) (program : Option (Fin 4)) (mask : Byte)
    (phase : Nat) : (s.openRoll kind id program mask phase).SettledOff os := h.setRoll _

theorem fdcClaims (h : s.SettledOff allOutputs) (set : List Output) (cls pattern : Nat) :
    (s.fdcClaims set cls pattern).SettledOff allOutputs := by
  unfold State.fdcClaims
  refine foldl h fun o ho s hs => ?_
  split
  · exact hs.addClaim ho _
  · exact hs.dropClaim ho _

theorem fdcRelease (h : s.SettledOff allOutputs) : s.fdcRelease.SettledOff allOutputs :=
  foldl h fun _ ho _ hs => hs.dropClaim ho _

theorem endDrill (h : s.SettledOff allOutputs) (d : Drill) (o : DrillOutcome) :
    (s.endDrill d o).SettledOff allOutputs := by
  unfold State.endDrill
  dsimp only
  refine raise ?_ _ _ _
  split
  · exact (h.fdcRelease.setDrill _).mapRoll _
  · exact h.fdcRelease.setDrill _

theorem enterAllClear (h : s.SettledOff allOutputs) (d : Drill) (b : Bool) :
    (s.enterAllClear d b).SettledOff allOutputs := by
  unfold State.enterAllClear
  dsimp only
  split
  · exact (h.mapRoll _).endDrill _ _
  · exact ((h.mapRoll _).setDrill _).fdcClaims _ _ _

theorem enterHold (h : s.SettledOff allOutputs) (d : Drill) : (s.enterHold d).SettledOff allOutputs := by
  have hhold := fun d' => ((h.fdcRelease.setDrill (some d')).mapRoll (fun r => { r with lastPhase := 4 }))
  unfold State.enterHold
  dsimp only
  split
  · exact (hhold _).enterAllClear _ _
  · split
    · exact (hhold _).enterAllClear _ _
    · exact hhold _

theorem enterEvacuate (h : s.SettledOff allOutputs) (d : Drill) : (s.enterEvacuate d).SettledOff allOutputs :=
  ((h.setDrill _).fdcClaims _ _ _).openRoll _ _ _ _ _

theorem startDrill (h : s.SettledOff allOutputs) (d : Drill) : (s.startDrill d).SettledOff allOutputs := by
  have hrun := fun a => (h.count .drillRuns).raise .drill 2 a
  unfold State.startDrill
  dsimp only
  split
  · exact (hrun _).enterEvacuate _
  · exact ((hrun _).setDrill _).fdcClaims _ _ _

/-- The settled state, with the choice open on every output. -/
theorem opened (h : s.SettledOff []) : s.SettledOff allOutputs := h.mono (by simp)

/-- An ARMED drill mutes nothing (R85). -/
theorem armed (h : s.SettledOff os) (hn : s.fdc.drill = none) {d : Drill} (hd : d.phase = .armed) :
    (s.setDrill (some d)).SettledOff os :=
  h.of_outs (fun _ => rfl) (fun _ => id) rfl (by simp [State.drillMute, State.setDrill, hn, hd, DrillPhase.mutes])
    (fun _ _ => rfl)

theorem takeStart (h : s.SettledOff []) (id : Word16) (program : Fin 4) (day : Word16) (ms : Nat) :
    (s.takeStart id program day ms).SettledOff [] := by
  unfold State.takeStart
  dsimp only
  split
  · exact h
  · exact h.of_parts (by simp) (by simp) (by simp) (by simp)
  · exact (h.opened.startDrill _).rechooseAll
  · next ha => exact (h.armed (startOutcome_armed ha) rfl).raise _ _ _

theorem drillReached (h : s.SettledOff []) (day : Word16) (ms : Nat) : (s.drillReached day ms).SettledOff [] := by
  unfold State.drillReached
  split
  · split
    · exact (h.opened.startDrill _).rechooseAll
    · exact h
  · exact h

theorem takeAbort (h : s.SettledOff []) (id : Word16) : (s.takeAbort id).SettledOff [] := by
  unfold State.takeAbort
  split
  · split
    · exact (h.opened.endDrill _ _).rechooseAll
    · exact h.count _
  · exact h.count _

theorem takeAllClear (h : s.SettledOff []) (id : Word16) : (s.takeAllClear id).SettledOff [] := by
  unfold State.takeAllClear
  split
  · split
    · split
      · exact (h.opened.endDrill _ _).rechooseAll
      · exact (h.opened.endDrill _ _).rechooseAll
      · exact (h.opened.enterAllClear _ _).rechooseAll
      · exact (h.opened.enterAllClear _ _).rechooseAll
      · exact h
    · exact h.count _
  · exact h.count _

theorem setFireSet (h : s.SettledOff os) (set : Option (List Output)) : (s.setFireSet set).SettledOff os :=
  h.of_outs (fun _ => rfl) (fun _ => id) rfl rfl (fun _ _ => rfl)

theorem supersede (h : s.SettledOff allOutputs) : s.supersede.SettledOff allOutputs := by
  unfold State.supersede
  split
  · exact (h.setDrill _).raise _ _ _
  · exact h

theorem fireClaims (h : s.SettledOff allOutputs) : s.fireClaims.SettledOff allOutputs := by
  unfold State.fireClaims
  split
  · exact (h.fdcClaims _ _ _).setFireSet _
  · exact h.fdcRelease.setFireSet _

/-- R157: the entry to ACTIVE takes the claims and mutes of a drill with it, and ends with one choice of winners. -/
theorem enterFire (h : s.SettledOff []) (reading : Byte) : (s.enterFire reading).SettledOff [] := by
  rw [enterFire_eq]
  exact (((((h.opened.supersede.setFire _ _).fireClaims).openRoll _ _ _ _ _).count _).raise _ _ _).rechooseAll

theorem fireRelease (h : s.SettledOff allOutputs) : s.fireRelease.SettledOff allOutputs :=
  (foldl h fun o _ _ hs => hs.dropClaim (mem_allOutputs o) _).setFireSet _

/-- R158: the return to QUIET ends with one choice of winners. -/
theorem leaveFire (h : s.SettledOff []) : s.leaveFire.SettledOff [] := by
  have hquiet := (h.opened.setFire .quiet 0).fireRelease.mapRoll RollCall.fireOver
  rw [leaveFire_eq]
  refine rechooseAll (os := allOutputs) ?_
  split
  · exact hquiet.raise _ _ _
  · exact hquiet

/-- R85, R155: where the fire state neither enters nor leaves the mute, the invariant stands. -/
theorem of_fire (h : s.SettledOff os) {x : FireDrill}
    (hfire : { s with fdc := x }.fireMute = s.fireMute) (hdrill : x.drill = s.fdc.drill) :
    { s with fdc := x }.SettledOff os :=
  h.of_outs (fun _ => rfl) (fun _ => id) hfire (by simp [State.drillMute, hdrill]) (fun _ _ => rfl)

theorem fireActive (h : s.SettledOff []) (reading : Byte) : (s.fireActive reading).SettledOff [] := by
  unfold State.fireActive
  dsimp only
  split
  · next hf =>
    split
    · exact h.enterFire _
    · exact h.of_fire (by simp [State.fireMute, hf]) rfl
  · next hf =>
    split
    · exact h.enterFire _
    · exact h.of_fire (by simp [State.fireMute, hf]) rfl
  · exact h
  · next hf => exact mapRoll (s := s.setFire .active 0) (h.of_fire (by simp [State.fireMute, hf]) rfl) _

theorem fireInactive (h : s.SettledOff []) : s.fireInactive.SettledOff [] := by
  unfold State.fireInactive
  dsimp only
  split
  · exact h
  · next hf => exact h.of_fire (by simp [State.fireMute, hf]) rfl
  · next hf =>
    split
    · exact h.leaveFire
    · exact mapRoll (s := s.setFire .clearing 1) (h.of_fire (by simp [State.fireMute, hf]) rfl) _
  · next hf =>
    split
    · exact h.leaveFire
    · exact h.of_fire (by simp [State.fireMute, hf]) rfl

theorem fireTroubled (h : s.SettledOff os) (reading : Byte) : (s.fireTroubled reading).SettledOff os := by
  unfold State.fireTroubled
  dsimp only
  split
  · refine (count ?_ _).raise _ _ _
    exact h.of_fire rfl rfl
  · exact h.of_fire rfl rfl

theorem troubleEnds (h : s.SettledOff os) (reading : Byte) : (s.troubleEnds reading).SettledOff os := by
  unfold State.troubleEnds
  dsimp only
  split
  · refine raise ?_ _ _ _
    exact h.of_fire rfl rfl
  · exact h.of_fire rfl rfl

theorem checkFire (h : s.SettledOff []) (reading : Byte) : (s.checkFire reading).SettledOff [] := by
  have hnext : { s with fdc := { s.fdc with nextCheck := s.fdc.nextCheck + Config.fireCheckUs } }.SettledOff [] :=
    h.of_fire rfl rfl
  unfold State.checkFire State.fireReading
  split
  · split
    · exact hnext.fireTroubled _
    · exact (hnext.troubleEnds _).fireActive _
    · exact (hnext.troubleEnds _).fireInactive
  · exact h

theorem atDeadline (h : s.SettledOff []) (phase : DrillPhase) {act : Drill → State}
    (hact : ∀ d, (act d).SettledOff allOutputs) : (s.atDeadline phase act).SettledOff [] := by
  unfold State.atDeadline
  split
  · split
    · exact (hact _).rechooseAll
    · exact h
  · exact h

/-- R85, R170: counting a progress notice leaves the phase and so the mute. -/
theorem progressDue (h : s.SettledOff os) : s.progressDue.SettledOff os := by
  unfold State.progressDue
  split
  · next d hd =>
    split
    · refine raise ?_ _ _ _
      exact h.of_outs (fun _ => rfl) (fun _ => id) rfl (by simp [State.drillMute, State.setDrill, hd]) (fun _ _ => rfl)
    · exact h
  · exact h

theorem takeHoldKey (h : s.SettledOff []) : s.takeHoldKey.SettledOff [] := by
  unfold State.takeHoldKey
  split
  · exact (h.opened.endDrill _ _).rechooseAll
  · exact h.count _

theorem takeSweep (h : s.SettledOff []) (i : Fin 8) : (s.takeSweep i).SettledOff [] := by
  unfold State.takeSweep State.afterStamp
  split
  · split
    · split
      · split
        · exact ((h.setRoll _).opened.enterAllClear _ _).rechooseAll
        · exact h.setRoll _
      · exact h.setRoll _
    · exact h.count _
  · exact h.count _

/-! ## The Bell Scheduler (R61 to R75) -/

/-- R73: a bell that rings ends with a choice of winner on each output of its set. -/
theorem ring (h : s.SettledOff []) (t : Target) (q : Bool) (pattern duration : Nat) :
    (s.ring t q pattern duration).SettledOff [] := by
  have hcount : (s.countResolution t (s.zm.resolveBell t q)).SettledOff [] :=
    h.of_parts (by simp) (by simp) (by simp) (by simp)
  unfold State.ring
  dsimp only
  split
  · exact hcount.count _
  · exact (rechooseAll (foldl (hcount.mono (by simp)) fun o ho s hs => hs.addClaim ho _)).count _

theorem fireBell (h : s.SettledOff []) (skip : Bool) (t : Target) (q : Bool) (pattern duration : Nat) :
    (s.fireBell skip t q pattern duration).SettledOff [] := by
  unfold State.fireBell
  split
  · exact h.count _
  · split
    · exact h.count _
    · exact h.ring _ _ _ _

theorem fireDrillEntry (h : s.SettledOff []) (program : Fin 4) : (s.fireDrillEntry program).SettledOff [] := by
  unfold State.fireDrillEntry
  dsimp only
  split
  · exact h.takeStart _ _ _ _
  · exact (h.takeStart _ _ _ _).count _
  · exact (h.takeStart _ _ _ _).count _
  · exact h.takeStart _ _ _ _

theorem processEntry (h : s.SettledOff []) (i : Fin 256) : (s.processEntry i).SettledOff [] := by
  unfold State.processEntry
  dsimp only
  split
  · split
    · exact h
    · exact h.fireBell _ _ _ _ _
    · exact h.fireDrillEntry _
  · exact h

theorem processEntries (h : s.SettledOff []) (is : List (Fin 256)) : (s.processEntries is).SettledOff [] :=
  foldl h fun i _ _ hs => hs.processEntry i

theorem setMark (h : s.SettledOff os) (hwm : Option Nat) : (s.setMark hwm).SettledOff os := h.of_parts rfl rfl rfl rfl

theorem derivePlan (h : s.SettledOff os) (day : Word16) : (s.derivePlan day).SettledOff os :=
  h.of_parts (by simp) (by simp) (by simp) (by simp)

theorem swapBanks (h : s.SettledOff os) (sec : Nat) : (s.swapBanks sec).SettledOff os :=
  h.of_parts (by simp) (by simp) (by simp) (by simp)

theorem bellSecond (h : s.SettledOff []) (sec : Nat) : (s.bellSecond sec).SettledOff [] := by
  unfold State.bellSecond
  dsimp only
  split
  · exact ((h.swapBanks _).processEntries _).setMark _
  · exact h.swapBanks _

theorem bellForward (h : s.SettledOff []) (so sn : Nat) : (s.bellForward so sn).SettledOff [] := by
  have hmissed : ∀ k, (s.countN .missed k).SettledOff [] := fun _ => h.of_parts rfl rfl rfl rfl
  unfold State.bellForward
  dsimp only
  split
  · split
    · exact ((hmissed _).processEntries _).setMark _
    · exact (((hmissed _).processEntries _).setMark _).raise _ _ _
  · exact h

theorem bellOtherDay (h : s.SettledOff []) (e : StepEvent) (sn : Nat) : (s.bellOtherDay e sn).SettledOff [] := by
  unfold State.bellOtherDay
  dsimp only
  split
  · exact ((h.derivePlan _).processEntries _).setMark _
  · exact (h.derivePlan _).setMark _

theorem bellStep (h : s.SettledOff []) (e : StepEvent) : (s.bellStep e).SettledOff [] := by
  unfold State.bellStep
  dsimp only
  split
  · exact h.of_parts (by simp) (by simp) (by simp) (by simp)
  · split
    · exact h.bellOtherDay _ _
    · split
      · exact h.bellForward _ _
      · exact h

/-! ## The Page Engine (R99 to R114) -/

theorem setCall (h : s.SettledOff os) (r : Fin 8) (c : Option Call) : (s.setCall r c).SettledOff os :=
  h.of_parts rfl rfl rfl rfl

/-- R113: calls whose zones lie among the outputs on which the choice is open are released. -/
theorem foldReleaseCall (rs : List (Fin 8)) (h : s.SettledOff os) (hz : ∀ r ∈ rs, ∀ o ∈ s.callZones r, o ∈ os) :
    (rs.foldl State.releaseCall s).SettledOff os := by
  induction rs generalizing s with
  | nil => exact h
  | cons r rs ih =>
    refine ih ((foldl h fun o ho _ hs => hs.dropClaim (hz r (by simp) o ho) _).setCall _ _) fun k hk o ho => ?_
    rw [callZones_releaseCall] at ho
    split at ho
    · cases ho
    · exact hz k (by simp [hk]) o ho

/-- R113: the closing of calls ends with a choice of winner on each of their zones. -/
theorem closeCalls (h : s.SettledOff []) (rs : List (Fin 8)) : (s.closeCalls rs).SettledOff [] :=
  rechooseAll (foldReleaseCall rs (h.mono (by simp)) fun r hr o ho => List.mem_flatMap.mpr ⟨r, hr, ho⟩)

theorem pageClaims (h : s.SettledOff os) (r : Fin 8) (priority : Nat) {zones : List Output}
    (hz : ∀ o ∈ zones, o ∈ os) : (s.pageClaims r priority zones).SettledOff os :=
  foldl h fun o ho _ hs => hs.addClaim (hz o ho) _

theorem createCall (h : s.SettledOff []) (r : Fin 8) (f : OpenFields) (zones : List Output) :
    (s.createCall r f zones).SettledOff [] := by
  unfold State.createCall
  dsimp only
  refine rechooseAll (pageClaims (mono (os := []) ?_ (by simp)) _ _ fun _ ho => ho)
  exact h.of_parts rfl rfl rfl rfl

theorem reopenCall (h : s.SettledOff []) (r : Fin 8) (c : Call) (f : OpenFields) (zones : List Output) :
    (s.reopenCall r c f zones).SettledOff [] := by
  unfold State.reopenCall
  dsimp only
  refine rechooseAll (pageClaims (foldl ?_ fun o ho _ hs => hs.dropClaim (List.mem_append_right _ ho) _) _ _
    fun _ ho => List.mem_append_left _ ho)
  exact (h.setCall _ _).mono (by simp)

theorem evictFor (h : s.SettledOff []) (f : OpenFields) (zones : List Output) : (s.evictFor f zones).SettledOff [] := by
  unfold State.evictFor
  split
  · split
    · exact (((h.closeCalls _).count _).raise _ _ _).createCall _ _ _
    · exact (h.count _).raise _ _ _
  · exact h

theorem takeOpen (h : s.SettledOff []) (payload : List Byte) : (s.takeOpen payload).SettledOff [] := by
  have hcount : ∀ t r, (s.countResolution t r).SettledOff [] := fun _ _ =>
    h.of_parts (by simp) (by simp) (by simp) (by simp)
  unfold State.takeOpen
  split
  · exact h.count _
  · dsimp only
    split
    · exact (hcount _ _).count _
    · split
      · split
        · exact (hcount _ _).reopenCall _ _ _ _
        · exact hcount _ _
      · split
        · exact (hcount _ _).createCall _ _ _
        · exact (hcount _ _).evictFor _ _

theorem takeClose (h : s.SettledOff []) (payload : List Byte) : (s.takeClose payload).SettledOff [] := by
  unfold State.takeClose
  split
  · split
    · exact h
    · split
      · exact h
      · split
        · exact h.closeCalls _
        · exact h
        · split
          · exact h.closeCalls _
          · exact h.setCall _ _
        · split
          · exact h.closeCalls _
          · exact h.setCall _ _
  · exact h.count _

/-- R107, R109: a frame handed to a zone, or a tone level read there, changes what a page plays and no silence. -/
theorem of_page {o : Output} (h : s.SettledOff os) {gz level : Nat} {clip : Option Nat}
    (hp : (s.out o).play = .page gz level clip) (v : Play) (c : Vector Bool 8) :
    (s.setOut o { s.out o with play := v, clipped := c }).SettledOff os :=
  h.of_play (o := o) (fun r hr => out_setOut_ne _ _ hr) (by simp) rfl rfl rfl
    (fun hs => absurd (h.silent o hs) (by simp [hp]))

theorem handFrame (h : s.SettledOff os) (o : Output) : (s.handFrame o).SettledOff os := by
  unfold State.handFrame
  split
  · next hp _ =>
    split
    · exact h.of_page hp _ _
    · exact h
  · exact h

theorem readLevel (h : s.SettledOff os) (r : Fin 8) (o : Output) : (s.readLevel r o).SettledOff os := by
  unfold State.readLevel
  split
  · next hp =>
    split
    · exact h.of_page hp _ _
    · exact h
  · exact h

theorem clearClipped (h : s.SettledOff os) (o : Output) : (s.clearClipped o).SettledOff os :=
  h.of_play (o := o) (fun r hr => out_setOut_ne _ _ hr) (by simp [State.clearClipped]) rfl rfl rfl
    (fun hs => by simpa [State.clearClipped] using h.silent o hs)

theorem frameTick (h : s.SettledOff []) : s.frameTick.SettledOff [] := by
  unfold State.frameTick
  dsimp only
  refine closeCalls (foldl (foldl ?_ fun r _ s hs => hs.of_parts (by simp) (by simp) (by simp) (by simp))
    fun o _ s hs => hs.handFrame o) _
  exact foldl (foldl h fun o _ s hs => hs.settleClip o) fun o _ s hs => hs.clearClipped o

theorem frameClock (h : s.SettledOff []) : s.frameClock.SettledOff [] := by
  unfold State.frameClock
  split
  · exact frameTick (h.of_parts rfl rfl rfl rfl)
  · exact h

theorem cutCalls (h : s.SettledOff []) : s.cutCalls.SettledOff [] :=
  (h.closeCalls _).of_parts rfl rfl rfl rfl

theorem silenceEnds (h : s.SettledOff []) (r : Fin 8) : (s.silenceEnds r).SettledOff [] := by
  unfold State.silenceEnds
  split
  · split
    · exact ((h.closeCalls _).count _).raise _ _ _
    · exact h
  · exact h

theorem chimeEnds (h : s.SettledOff os) (r : Fin 8) : (s.chimeEnds r).SettledOff os := by
  unfold State.chimeEnds
  split
  · split
    · exact h.setCall _ _
    · exact h
  · exact h

/-! ## Tones (R94) -/

/-- R94: the phase of a tone that plays ends: the output is neither isolated nor without winner. -/
theorem outputPhaseEnd (h : s.SettledOff os) (o : Output) : (s.outputPhaseEnd o).SettledOff os := by
  have htone : ∀ {pos level} (v : Play), (s.out o).play = .tone pos level →
      (s.setOut o { s.out o with play := v }).SettledOff os := fun v hp =>
    h.of_play (o := o) (fun r hr => out_setOut_ne _ _ hr) (by simp) rfl rfl rfl
      (fun hs => absurd (h.silent o hs) (by simp [hp]))
  unfold State.outputPhaseEnd
  split
  · next hp _ =>
    split
    · split
      · exact (htone _ hp).settleScan
      · exact (htone _ hp).settleScan
    · exact h
  · exact h

theorem chimePhaseEnd (h : s.SettledOff os) (r : Fin 8) : (s.chimePhaseEnd r).SettledOff os := by
  unfold State.chimePhaseEnd
  split
  · split
    · split
      · dsimp only
        split
        · exact foldl (h.setCall _ _) fun o _ s hs => hs.readLevel r o
        · exact h.setCall _ _
      · exact h
    · exact h
  · exact h

/-! ## The Timebase (R3 to R14) -/

theorem elapse (h : s.SettledOff os) (dt : Nat) : (s.elapse dt).SettledOff os :=
  h.of_parts (by simp) (by simp) (by simp) (by simp)

theorem secondBoundary (h : s.SettledOff []) (b : Bool) (sec : Nat) : (s.secondBoundary b sec).SettledOff [] := by
  unfold State.secondBoundary inOrder
  split
  · exact (h.drillReached _ _).bellSecond _
  · exact (h.bellSecond _).drillReached _ _

theorem stepEvent (h : s.SettledOff []) (b : Bool) (e : StepEvent) : (s.stepEvent b e).SettledOff [] := by
  have horder : (inOrder b (fun s => s.drillReached e.newDay e.newMs) (fun s => s.bellStep e) s).SettledOff [] := by
    unfold inOrder
    split
    · exact (h.drillReached _ _).bellStep _
    · exact (h.bellStep _).drillReached _ _
  unfold State.stepEvent
  exact horder.of_parts (by simp) (by simp) (by simp) (by simp)

theorem bellMidnight (h : s.SettledOff os) (day : Word16) : (s.bellMidnight day).SettledOff os :=
  (h.setMark _).derivePlan _

theorem tickEvents (h : s.SettledOff []) (b : Bool) (ms adv : Nat) : (s.tickEvents b ms adv).SettledOff [] := by
  have hif : ∀ {u v : State} {p : Prop} [Decidable p], u.SettledOff [] → v.SettledOff [] →
      (if p then u else v).SettledOff [] := fun hu hv => by split <;> assumption
  have hboundary : ∀ {u : State} k, u.SettledOff [] → (u.stepBoundary k).SettledOff [] := fun k hu =>
    hu.of_parts (by simp) (by simp) (by simp) (by simp)
  have hbackup : ∀ {u : State}, u.SettledOff [] → u.writeBackup.SettledOff [] := fun hu =>
    hu.of_parts (by simp) (by simp) (by simp) (by simp)
  unfold State.tickEvents
  dsimp only
  have h1 := hif (p := Config.dayMs ≤ ms + adv) (h.bellMidnight s.tb.day) h
  have h2 := hif (p := ms / 1000 < (ms + adv) / 1000) (h1.secondBoundary b ((ms + adv) / 1000 % 86400)) h1
  have h3 := hif (p := ms / 30000 < (ms + adv) / 30000) (hboundary ((ms + adv) / 30000 % 2880) h2) h2
  exact hif (hbackup h3) h3

theorem localTickEvent (h : s.SettledOff []) (b : Bool) : (s.localTickEvent b).SettledOff [] := by
  have htick : { s.elapse (1000 - s.tb.phase) with tb := (s.elapse (1000 - s.tb.phase)).tb.tick }.SettledOff [] :=
    (h.elapse _).of_parts rfl rfl rfl rfl
  unfold State.localTickEvent
  dsimp only
  split
  · exact htick
  · exact htick.tickEvents _ _ _

theorem localTicks (h : s.SettledOff []) (b : Bool) (n : Nat) : (s.localTicks b n).SettledOff [] := by
  induction n generalizing s with
  | zero => exact h
  | succ n ih => exact ih (h.localTickEvent b)

theorem passLag (h : s.SettledOff []) (lag : Nat) (b : Bool) : (s.passLag lag b).SettledOff [] :=
  (h.localTicks _ _).elapse _

theorem startEvent (h : s.SettledOff os) : s.startEvent.SettledOff os :=
  h.of_parts (by simp [State.startEvent, State.bellStart, State.setMark])
    (by simp [State.startEvent, State.bellStart, State.setMark])
    (by simp [State.startEvent, State.bellStart, State.setMark]) (by simp)

theorem acceptTime (h : s.SettledOff []) (f : TimeFields) (lag : Nat) (b : Bool) :
    (s.acceptTime f lag b).SettledOff [] := by
  unfold State.acceptTime
  dsimp only
  split
  · unfold State.takeStep
    dsimp only
    refine raise ?_ _ _ _
    have hset : ∀ tb, ((({ s.passLag lag b with tb := tb } : State).setQuality .synced).count .timeSteps).writeBackup.SettledOff [] :=
      fun tb => (h.passLag lag b).of_parts (by simp) (by simp) (by simp) (by simp)
    split
    · exact (hset _).startEvent
    · exact (hset _).stepEvent _ _
  · exact h.of_parts (by simp) (by simp) (by simp) (by simp)

end State.SettledOff

end Sys2Proof.Machine

/-! PROOFS. Each winner is the claim chosen, and what must be silent is (R81, R82, R84, R89): every step keeps it. -/

namespace Sys2Proof.Machine

@[simp] theorem timeoutEnds_keeps (s : State) :
    s.timeoutEnds.now = s.now ∧ s.timeoutEnds.held = s.held ∧ s.timeoutEnds.mainPower = s.mainPower ∧
    s.timeoutEnds.zm = s.zm ∧ s.timeoutEnds.bs = s.bs ∧ s.timeoutEnds.za = s.za ∧ s.timeoutEnds.pe = s.pe ∧
    s.timeoutEnds.cld = s.cld ∧ s.timeoutEnds.csv = s.csv ∧ s.timeoutEnds.fdc = s.fdc ∧ s.timeoutEnds.mu = s.mu ∧
    s.timeoutEnds.rs = s.rs ∧ s.timeoutEnds.image = s.image ∧ s.timeoutEnds.draws = s.draws ∧
    s.timeoutEnds.pending = s.pending := by
  unfold State.timeoutEnds
  dsimp only
  (repeat' split) <;> simp

@[simp] theorem echoPeriodEnds_keeps (s : State) :
    s.echoPeriodEnds.now = s.now ∧ s.echoPeriodEnds.held = s.held ∧ s.echoPeriodEnds.mainPower = s.mainPower ∧
    s.echoPeriodEnds.zm = s.zm ∧ s.echoPeriodEnds.bs = s.bs ∧ s.echoPeriodEnds.za = s.za ∧ s.echoPeriodEnds.pe = s.pe ∧
    s.echoPeriodEnds.cld = s.cld ∧ s.echoPeriodEnds.csv = s.csv ∧ s.echoPeriodEnds.fdc = s.fdc ∧ s.echoPeriodEnds.mu = s.mu ∧
    s.echoPeriodEnds.rs = s.rs ∧ s.echoPeriodEnds.image = s.image ∧ s.echoPeriodEnds.draws = s.draws ∧
    s.echoPeriodEnds.pending = s.pending := by
  unfold State.echoPeriodEnds
  (repeat' split) <;> simp

@[simp] theorem echoTimesOut_keeps (s : State) :
    s.echoTimesOut.now = s.now ∧ s.echoTimesOut.held = s.held ∧ s.echoTimesOut.mainPower = s.mainPower ∧
    s.echoTimesOut.line = s.line ∧ s.echoTimesOut.zm = s.zm ∧ s.echoTimesOut.bs = s.bs ∧ s.echoTimesOut.za = s.za ∧
    s.echoTimesOut.pe = s.pe ∧ s.echoTimesOut.cld = s.cld ∧ s.echoTimesOut.csv = s.csv ∧ s.echoTimesOut.fdc = s.fdc ∧
    s.echoTimesOut.mu = s.mu ∧ s.echoTimesOut.rs = s.rs ∧ s.echoTimesOut.image = s.image ∧ s.echoTimesOut.draws = s.draws ∧
    s.echoTimesOut.pending = s.pending := by
  unfold State.echoTimesOut
  (repeat' split) <;> simp

@[simp] theorem unassignedEnds_keeps (s : State) :
    s.unassignedEnds.now = s.now ∧ s.unassignedEnds.held = s.held ∧ s.unassignedEnds.mainPower = s.mainPower ∧
    s.unassignedEnds.tb = s.tb ∧ s.unassignedEnds.zm = s.zm ∧ s.unassignedEnds.bs = s.bs ∧ s.unassignedEnds.za = s.za ∧
    s.unassignedEnds.pe = s.pe ∧ s.unassignedEnds.cld = s.cld ∧ s.unassignedEnds.csv = s.csv ∧ s.unassignedEnds.fdc = s.fdc ∧
    s.unassignedEnds.rs = s.rs ∧ s.unassignedEnds.image = s.image ∧ s.unassignedEnds.draws = s.draws ∧
    s.unassignedEnds.pending = s.pending ∧ s.unassignedEnds.mu.node = s.mu.node := by
  unfold State.unassignedEnds
  dsimp only
  (repeat' split) <;> simp

namespace State.SettledOff

variable {os : List Output} {s t : State}

/-! ## Requests (R85, R91, R92) -/

/-- R85: under the drill mute a change of EVAC opens the choice of its output, and the write ends with that choice. -/
theorem changeAttrs (h : s.SettledOff []) (start : Nat) (rs : List (Option ZoneAttr)) :
    (s.changeAttrs start rs).SettledOff [] := by
  unfold State.changeAttrs
  dsimp only
  generalize hw : writeRecords s.zm.attrs start rs = v
  have hsame : ∀ u : State, u = { s with zm := { s.zm with attrs := v } } → ∀ o, (u.attr o).evac = (s.attr o).evac →
      u.choice o = s.choice o := fun u hu o he => by subst hu; exact choice_congr rfl rfl rfl rfl he
  split
  · refine rechooseAll (os := allOutputs.filter _) ⟨h.distinct, h.silent, fun o ho => ?_⟩
    rw [hsame _ rfl o (by simpa using ho)]
    exact h.chosen o (by simp)
  · next hmute =>
    refine ⟨h.distinct, h.silent, fun o _ => ?_⟩
    have hoff : s.drillMute = false := by simpa [State.drillMute] using hmute
    rw [show ({ s with zm := { s.zm with attrs := v } } : State).choice o = s.choice o by
      simp only [State.choice, State.blocked, show ({ s with zm := { s.zm with attrs := v } } : State).drillMute = false
        from hoff, hoff]; rfl]
    exact h.chosen o (by simp)

theorem applyOn (h : s.SettledOff []) (o : Output) : (s.applyOn o).SettledOff [] := by
  unfold State.applyOn
  split
  · exact h
  · exact rechooseAll (((h.mono (by simp)).setForce (List.mem_singleton_self o) _).addClaim (List.mem_singleton_self o) _)

theorem applyOff (h : s.SettledOff []) (o : Output) : (s.applyOff o).SettledOff [] := by
  unfold State.applyOff
  split
  · exact h
  · exact rechooseAll (((h.mono (by simp)).setForce (List.mem_singleton_self o) _).dropClaim (List.mem_singleton_self o) _)

theorem applyRelease (h : s.SettledOff []) (o : Output) : (s.applyRelease o).SettledOff [] :=
  rechooseAll (((h.mono (by simp)).setForce (List.mem_singleton_self o) _).dropClaim (List.mem_singleton_self o) _)

theorem foldl_applyStep_attrs (ts : List SelectStep) (m : ZoneMap) : (ts.foldl ZoneMap.applyStep m).attrs = m.attrs := by
  induction ts generalizing m with
  | nil => rfl
  | cons t ts ih =>
    simp [ih, ZoneMap.applyStep]

theorem takeBellNow (h : s.SettledOff []) (payload : List Byte) : (s.takeBellNow payload).SettledOff [] := by
  unfold State.takeBellNow
  dsimp only
  split
  · exact h.count _
  · refine fireBell ?_ _ _ _ _ _
    split
    · exact h
    · exact h.count _

/-- R54: the SEL flags change, and no zone record. -/
theorem takeSelect (h : s.SettledOff os) (payload : List Byte) : (s.takeSelect payload).SettledOff os := by
  unfold State.takeSelect
  split
  · dsimp only
    have hsel := h.of_outs (t := { s with zm := (selectSteps payload).foldl ZoneMap.applyStep s.zm }) (fun _ => rfl)
      (fun _ => id) rfl rfl (fun o _ => by simp [State.attr, foldl_applyStep_attrs])
    split
    · exact hsel.count _
    · exact hsel
  · exact h.count _

theorem changeWindows (h : s.SettledOff os) (start : Nat) (rs : List (Option Window)) :
    (s.changeWindows start rs).SettledOff os := by
  unfold State.changeWindows
  generalize writeRecords _ start rs = v
  exact h.of_outs (fun _ => rfl) (fun _ => id) rfl rfl (fun _ _ => rfl)

theorem changeTones (h : s.SettledOff os) (start : Nat) (rs : List (Option TonePattern)) :
    (s.changeTones start rs).SettledOff os := by
  unfold State.changeTones
  generalize writeRecords _ start rs = v
  exact h.of_outs (fun _ => rfl) (fun _ => id) rfl rfl (fun _ _ => rfl)

theorem changeDrills (h : s.SettledOff os) (start : Nat) (rs : List (Option DrillProg)) :
    (s.changeDrills start rs).SettledOff os := by
  unfold State.changeDrills
  generalize writeRecords _ start rs = v
  exact h.of_fire rfl rfl

/-! ## The resets (R97, R191, R192) -/

/-- R97: an output as a reset leaves it holds no claim, has no winner and plays nothing. -/
theorem of_reset (h : ∀ o, t.out o = .reset) : t.SettledOff os where
  distinct o := by rw [h]; exact List.Pairwise.nil
  silent o := by rw [h]; exact fun _ => rfl
  chosen o _ := by simp [State.choice, h, OutputState.reset, leading]

theorem lineReset : s.lineReset.SettledOff [] := by
  have hvalues : s.lineResetValues.SettledOff [] := of_reset fun o => by simp [State.lineResetValues, State.out]
  unfold State.lineReset
  dsimp only
  refine foldl ?_ fun k _ _ hs => hs.evaluate k
  refine of_parts (s := s.lineResetValues) hvalues ?_ ?_ ?_ ?_ <;> (repeat' split) <;> simp

theorem askLineReset (h : s.SettledOff []) (tag : Byte) : (s.askLineReset tag).SettledOff [] := by
  unfold State.askLineReset
  split
  · exact h.reply _ _ _ _
  · dsimp only
    split
    · exact h.of_parts (by simp) (by simp) (by simp) (by simp)
    · exact lineReset

theorem transmissionEnds (h : s.SettledOff []) (p : PortId) : (s.transmissionEnds p).SettledOff [] := by
  unfold State.transmissionEnds
  split
  · split
    · dsimp only
      split
      · exact lineReset
      · exact h.of_parts (by simp) (by simp) (by simp) (by simp)
    · exact h
  · exact h

theorem portLost (h : s.SettledOff []) (flushed : List QItem) (p : PortId) : (s.portLost flushed p).SettledOff [] := by
  unfold State.portLost
  split
  · exact h.raise _ _ _
  · dsimp only
    split
    · exact lineReset
    · exact h.cutCalls.of_parts rfl rfl rfl rfl

theorem signalLost (h : s.SettledOff []) (p : PortId) : (s.signalLost p).SettledOff [] := by
  unfold State.signalLost
  dsimp only
  split
  · refine portLost ?_ _ _
    split <;> exact h.of_parts (by simp) (by simp) (by simp) (by simp)
  · exact h

theorem hold (cause : ResetCause) : (s.hold cause).SettledOff os :=
  of_reset fun o => by simp [State.hold, State.out]

theorem release (key : Bool) (sweeps : Byte) (supply : Bool) : (s.release key sweeps supply).SettledOff [] := by
  have hvalues : (s.fullResetValues key sweeps supply).SettledOff [] :=
    of_reset fun o => by simp [State.fullResetValues, State.out]
  have hstart : ((s.fullResetValues key sweeps supply).scanFromLowest).SettledOff [] :=
    hvalues.of_parts (by simp) (by simp) (by simp) (by simp)
  unfold State.release
  dsimp only
  split
  · exact startEvent ((hstart.raise _ _ _).raise _ _ _)
  · exact hstart.raise _ _ _

theorem lineKept : LineKept (State.SettledOff []) where
  elapse dt h := h.elapse dt
  count c h := h.count c
  draw h := h.of_parts rfl rfl rfl rfl
  reply tag req st r h := h.reply tag req st r
  endReception p h := h.of_parts (by simp) (by simp) (by simp) (by simp)
  beginReception p h := h.of_parts (by simp) (by simp) (by simp) (by simp)
  learnAt hd h := h.of_parts (by simp) (by simp) (by simp) (by simp)
  joinDown q i h := h.of_parts (by simp) (by simp) (by simp) (by simp)
  relayUp f h := h.of_parts (by simp) (by simp) (by simp) (by simp)
  signalPresent p h := h.of_parts (by simp) (by simp) (by simp) (by simp)
  debounced p h := h.of_parts (by simp) (by simp) (by simp) (by simp)
  retrain p h := h.of_parts (by simp) (by simp) (by simp) (by simp)
  trained p h := h.of_parts (by simp) (by simp) (by simp) (by simp)
  attachLost p h := h.of_parts (by simp) (by simp) (by simp) (by simp)
  signalLost p h := h.signalLost p
  startTransmission p h := h.of_parts (by simp) (by simp) (by simp) (by simp)
  transmissionEnds p h := h.transmissionEnds p

theorem timeKept : TimeKept (State.SettledOff []) where
  acceptTime _ lag b h := h.acceptTime _ _ b
  takeEchoReply tag payload h := h.of_parts (by simp) (by simp) (by simp) (by simp)
  localTickEvent b h := h.localTickEvent b
  timeoutEnds h := h.of_parts (by simp) (by simp) (by simp) (by simp)
  echoPeriodEnds h := h.of_parts (by simp) (by simp) (by simp) (by simp)
  echoTimesOut h := h.of_parts (by simp) (by simp) (by simp) (by simp)
  backupSecond h := h.of_parts (by simp) (by simp) (by simp) (by simp)

theorem soundKept : SoundKept (State.SettledOff []) where
  takeAudio payload h := h.of_parts (by simp) (by simp) (by simp) (by simp)
  takeOpen payload h := h.takeOpen payload
  takeClose payload h := h.takeClose payload
  chimeEnds r h := h.chimeEnds r
  chimePhaseEnd r h := h.chimePhaseEnd r
  frameClock h := h.frameClock
  silenceEnds r h := h.silenceEnds r
  takeBellNow payload h := h.takeBellNow payload
  takeSelect payload h := h.takeSelect payload
  bellEnds o h := rechooseAll ((h.mono (by simp)).dropClaim (List.mem_singleton_self o) _)
  outputPhaseEnd o h := h.outputPhaseEnd o

theorem plantKept : PlantKept (State.SettledOff []) where
  checkPulse k p reading h := h.checkPulse k p reading
  endPulse k pol b h := h.endPulse k pol b
  evaluate k h := h.evaluate k
  dwellEnds reading h := h.dwellEnds reading
  checkFire reading h := h.checkFire reading
  takeStart id program day ms h := h.takeStart id program day ms
  takeAbort id h := h.takeAbort id
  takeAllClear id h := h.takeAllClear id
  evacuateNow d h := (h.opened.enterEvacuate d).rechooseAll
  holdNow d h := (h.opened.enterHold d).rechooseAll
  allClearNow d b h := (h.opened.enterAllClear d b).rechooseAll
  endDrillNow d o h := (h.opened.endDrill d o).rechooseAll
  progressDue h := h.progressDue
  setHoldKey _ h := h.of_fire rfl rfl
  setSweeps _ h := h.of_fire rfl rfl
  takeSweep i h := h.takeSweep i

theorem requestKept : RequestKept (State.SettledOff []) where
  unassignedEnds h := h.of_parts (by simp) (by simp) (by simp) (by simp)
  setAddr hd addr h := h.of_parts (by simp) (by simp) (by simp) (by simp)
  clearCounters start n h := h.of_parts (by simp) (by simp) (by simp) (by simp)
  activate tag h := h.of_parts (by simp) (by simp) (by simp) (by simp)
  resyncClock tag line position polarity h := h.of_parts (by simp) (by simp) (by simp) (by simp)
  recover tag circuit h := h.recover tag circuit
  applyOn o h := h.applyOn o
  applyOff o h := h.applyOff o
  applyRelease o h := h.applyRelease o
  saveImage tag h := h.of_parts (by simp) (by simp) (by simp) (by simp)
  saveDone h := h.of_parts (by simp) (by simp) (by simp) (by simp)
  askLineReset tag h := h.askLineReset tag

theorem writeKept : WriteKept (State.SettledOff []) where
  changeSched bank start rs h := h.of_parts (by simp) (by simp) (by simp) (by simp)
  changeCalendar start rs h := h.of_parts (by simp) (by simp) (by simp) (by simp)
  changeWeek start rs h := h.of_parts (by simp) (by simp) (by simp) (by simp)
  changeWindows start rs h := h.changeWindows start rs
  changeAttrs start rs h := h.changeAttrs start rs
  changeTones start rs h := h.changeTones start rs
  changeClocks start rs h := h.of_parts (by simp) (by simp) (by simp) (by simp)
  changeSups start rs h := h.changeSups start rs
  changeDrills start rs h := h.changeDrills start rs
  changeNode start rs _ h := h.of_parts (by simp) (by simp) (by simp) (by simp)
  hold cause _ := hold cause
  release key sweeps supply _ := release key sweeps supply
  backupLost h := h.of_parts (by simp) (by simp) (by simp) (by simp)

/-- R81, R84, R89: every act keeps claims distinct, winners chosen and silences. -/
theorem kept : Kept (State.SettledOff []) := ⟨lineKept, timeKept, soundKept, plantKept, requestKept, writeKept⟩

end State.SettledOff

/-- Settles O59: a batch of changes to claims, force states and mutes leaves the choice of winner open on the outputs it
names, and the choice that ends it settles them; so every act keeps the settled state. -/
theorem winnersStayChosen : Obligations.WinnersStayChosen := by
  intro s t hdistinct hchosen hsilent hstep
  have hs : s.SettledOff [] := ⟨hdistinct, hsilent, fun o _ => hchosen o⟩
  have ht : t.SettledOff [] := State.SettledOff.kept.step (fun _ _ h => h.of_parts rfl rfl rfl rfl) hs hstep
  exact ⟨ht.distinct, fun o => ht.chosen o (by simp), ht.silent⟩

end Sys2Proof.Machine

/-! PROOFS. Campus time (Chapter 1): what the events of the Timebase make of T, D, C and L (R1 to R20), and the ranges that
every step keeps. -/

namespace Sys2Proof.Machine

/-! ## What each event makes of the Timebase -/

/-- R3: of the Timebase a local millisecond is the passing of time and the tick; its events leave it. -/
theorem localTickEvent_tb (s : State) (b : Bool) : (s.localTickEvent b).tb = (s.elapse (1000 - s.tb.phase)).tb.tick := by
  unfold State.localTickEvent
  dsimp only
  split <;> simp

/-- R21, R192: of the Timebase a line reset stops the timeout and the measurement, and SYNCED becomes HOLDOVER. -/
theorem lineReset_tb (s : State) :
    s.lineReset.tb = { s.tb with
      timeoutEnd := none, echo := .idle, quality := if s.tb.quality = .synced then .holdover else s.tb.quality } := by
  have hfold : ∀ t : State, (allLines.foldl State.evaluate t).tb = t.tb := foldl_part (fun s => s.tb) (by simp) _
  unfold State.lineReset
  dsimp only
  rw [hfold]
  by_cases hq : s.tb.quality = .synced
  · split <;> simp [State.lineResetValues, hq]
  · split <;> simp [State.lineResetValues, hq]

@[simp] theorem lineReset_rs (s : State) : s.lineReset.rs = s.rs := by
  have hfold : ∀ t : State, (allLines.foldl State.evaluate t).rs = t.rs := foldl_part (fun s => s.rs) (by simp) _
  unfold State.lineReset
  dsimp only
  rw [hfold]
  (repeat' split) <;> simp [State.lineResetValues]

@[simp] theorem lineReset_mu (s : State) : s.lineReset.mu = { s.mu with resetPending := false } := by
  have hfold : ∀ t : State, (allLines.foldl State.evaluate t).mu = t.mu := foldl_part (fun s => s.mu) (by simp) _
  unfold State.lineReset
  dsimp only
  rw [hfold]
  (repeat' split) <;> simp [State.lineResetValues]

/-- R9, R12: the estimate of an accepted frame, carried forward, is a time of a day. -/
theorem carryForward_lt {payload : List Byte} {f : TimeFields} (hf : timeFields payload = some f) {l : Nat} (hl : l ≤ 50000)
    (lag : Word32) : (carryForward (f.estimate l) lag.toNat).1 < 86400000000 := by
  have hfields : f.ms ≤ 86399999 ∧ f.delay ≤ 4294967295 := by
    unfold timeFields at hf
    dsimp only at hf
    split at hf
    · next h =>
      obtain rfl := Option.some.inj hf
      have hms : (word32At payload 2).toNat < 86400000 := h.2
      exact ⟨by show (word32At payload 2).toNat ≤ _; omega, by show (word32At payload 6).toNat ≤ _; omega⟩
    · cases hf
  have hest := (estimateFormed f l hfields.1 hfields.2 hl).2.2
  unfold carryForward Config.dayUs
  split
  · show _ - _ < _
    omega
  · show _ < _
    omega

/-! ## Ranges of the Timebase -/

/-- Chapter 1: the ranges of the Timebase alone. -/
structure Timebase.Legal (tb : Timebase) : Prop where
  ms         : tb.ms < 86400000
  slewCount  : tb.slewCount < 50
  linkDelay  : tb.linkDelay ≤ 50000
  heldAtZero : tb.quality = .invalid → tb.day = 0 ∧ tb.ms = 0
  timeout    : tb.timeoutEnd.isSome = true → tb.quality = .synced

theorem Timebase.us_of_invalid {tb : Timebase} (h : tb.quality = .invalid) : tb.us = 0 := by simp [Timebase.us, h]

/-- R1: u lies in its range and is 0 in INVALID by what it is; the other ranges are those of the parts. -/
theorem timeLegal_iff (s : State) :
    s.TimeLegal ↔ s.tb.Legal ∧ s.mu.node.linkDelay ≤ 50000 ∧ s.rs.second ≤ 86399 := by
  constructor
  · intro h
    exact ⟨⟨h.ms, h.slewCount, h.linkDelay, fun hq => ⟨(h.heldAtZero hq).1, (h.heldAtZero hq).2.1⟩, h.timeout⟩, h.default, h.second⟩
  · rintro ⟨h, hnode, hsecond⟩
    exact ⟨h.ms, s.tb.us_lt, h.slewCount, h.linkDelay, hnode, hsecond,
      fun hq => ⟨(h.heldAtZero hq).1, (h.heldAtZero hq).2, Timebase.us_of_invalid hq⟩, h.timeout⟩

namespace Timebase.Legal

variable {tb : Timebase}

/-- R3: a tick moves T around the day and the slew counter around its fifty. -/
theorem tick (h : tb.Legal) : tb.tick.Legal := by
  have hcount : (if tb.slewCount < 49 then tb.slewCount + 1 else 0) < 50 := by split <;> omega
  unfold Timebase.tick
  dsimp only
  split
  · exact ⟨h.ms, hcount, h.linkDelay, h.heldAtZero, h.timeout⟩
  · next hq => exact ⟨Nat.mod_lt _ (by decide), hcount, h.linkDelay, fun hi => absurd hi hq, h.timeout⟩

/-- R14, R21: without a timeout quality may be any but INVALID. -/
theorem unsynced (h : tb.Legal) {q : Quality} (hq : q = .invalid → tb.quality = .invalid) (e : EchoState) :
    { tb with timeoutEnd := none, echo := e, quality := q }.Legal :=
  ⟨h.ms, h.slewCount, h.linkDelay, fun hi => h.heldAtZero (hq hi), by simp⟩

end Timebase.Legal

namespace State.TimeLegal

variable {s t : State}

theorem parts (h : s.TimeLegal) : s.tb.Legal := ((timeLegal_iff s).mp h).1

/-- The ranges stand where the Timebase stands, or is legal anew, and the other two figures stand. -/
theorem of_tb (h : s.TimeLegal) (htb : t.tb.Legal) (he : t.mu.node = s.mu.node ∧ t.rs.second = s.rs.second) : t.TimeLegal :=
  (timeLegal_iff t).mpr ⟨htb, by rw [he.1]; exact h.default, by rw [he.2]; exact h.second⟩

theorem of_parts (h : s.TimeLegal) (he : t.tb = s.tb ∧ t.mu.node = s.mu.node ∧ t.rs.second = s.rs.second) : t.TimeLegal :=
  h.of_tb (by rw [he.1]; exact h.parts) he.2

/-! ## The Timebase's own acts -/

theorem elapse (h : s.TimeLegal) (dt : Nat) : (s.elapse dt).TimeLegal := by
  refine h.of_tb ?_ (by simp)
  obtain he | he := elapse_cases s dt
  · rw [he]
    exact h.parts
  · rw [he]
    exact ⟨h.ms, h.slewCount, h.linkDelay, h.parts.heldAtZero, h.timeout⟩

/-- R19: the second of day of a legal T is written. -/
theorem writeBackup (h : s.TimeLegal) : s.writeBackup.TimeLegal := by
  refine (timeLegal_iff _).mpr ⟨h.parts, h.default, ?_⟩
  have hms := h.ms
  show s.tb.ms / 1000 ≤ 86399
  omega

theorem secondBoundary (h : s.TimeLegal) (b : Bool) (sec : Nat) : (s.secondBoundary b sec).TimeLegal := h.of_parts (by simp)

theorem stepBoundary (h : s.TimeLegal) (k : Nat) : (s.stepBoundary k).TimeLegal := h.of_parts (by simp)

theorem stepEvent (h : s.TimeLegal) (b : Bool) (e : StepEvent) : (s.stepEvent b e).TimeLegal := h.of_parts (by simp)

theorem startEvent (h : s.TimeLegal) : s.startEvent.TimeLegal := h.of_parts (by simp)

theorem raise (h : s.TimeLegal) (c : NoticeClass) (k : Nat) (a : List Byte) : (s.raise c k a).TimeLegal := h.of_parts (by simp)

theorem setPort (h : s.TimeLegal) (p : PortId) (v : Port) : (s.setPort p v).TimeLegal := h.of_parts (by simp)

theorem tickEvents (h : s.TimeLegal) (b : Bool) (ms adv : Nat) : (s.tickEvents b ms adv).TimeLegal := by
  unfold State.tickEvents
  dsimp only
  have hif : ∀ {u v : State} {p : Prop} [Decidable p], u.TimeLegal → v.TimeLegal → (if p then u else v).TimeLegal :=
    fun hu hv => by split <;> assumption
  have h1 := hif (p := Config.dayMs ≤ ms + adv) (h.of_parts (t := s.bellMidnight s.tb.day) (by simp)) h
  have h2 := hif (p := ms / 1000 < (ms + adv) / 1000) (h1.secondBoundary b ((ms + adv) / 1000 % 86400)) h1
  have h3 := hif (p := ms / 30000 < (ms + adv) / 30000) (h2.stepBoundary ((ms + adv) / 30000 % 2880)) h2
  exact hif h3.writeBackup h3

theorem localTickEvent (h : s.TimeLegal) (b : Bool) : (s.localTickEvent b).TimeLegal := by
  have hu := h.elapse (1000 - s.tb.phase)
  have htick : { s.elapse (1000 - s.tb.phase) with tb := (s.elapse (1000 - s.tb.phase)).tb.tick }.TimeLegal :=
    hu.of_tb hu.parts.tick (by simp)
  unfold State.localTickEvent
  dsimp only
  split
  · exact htick
  · exact htick.tickEvents _ _ _

theorem localTicks (h : s.TimeLegal) (b : Bool) (n : Nat) : (s.localTicks b n).TimeLegal := by
  induction n generalizing s with
  | zero => exact h
  | succ n ih => exact ih (h.localTickEvent b)

theorem passLag (h : s.TimeLegal) (lag : Nat) (b : Bool) : (s.passLag lag b).TimeLegal := (h.localTicks _ _).elapse _

/-- R12, R13: a step sets a time of a day, a slew moves none, and both start the timeout in SYNCED. -/
theorem acceptTime (h : s.TimeLegal) {payload : List Byte} {f : TimeFields} (hf : timeFields payload = some f)
    (lag : Word32) (b : Bool) : (s.acceptTime f lag.toNat b).TimeLegal := by
  unfold State.acceptTime
  dsimp only
  split
  · have hlag := h.passLag lag.toNat b
    have hnew := carryForward_lt hf h.linkDelay lag
    have hstepped : ∀ e : Option Nat, ((({ s.passLag lag.toNat b with tb := { (s.passLag lag.toNat b).tb with
        day := (carryForward (f.estimate s.tb.linkDelay) lag.toNat).2,
        ms := (carryForward (f.estimate s.tb.linkDelay) lag.toNat).1 / 1000,
        phase := (carryForward (f.estimate s.tb.linkDelay) lag.toNat).1 % 1000,
        slew := 0, epoch := some f.epoch, timeoutEnd := e } } : State).setQuality .synced).count
        .timeSteps).writeBackup.TimeLegal := by
      intro e
      refine writeBackup (hlag.of_tb ?_ (by simp))
      simp only [State.count_keeps, setQuality_tb]
      exact ⟨by show _ / 1000 < 86400000; omega, hlag.slewCount, hlag.linkDelay, by simp, by simp⟩
    unfold State.takeStep
    dsimp only
    split
    · exact (hstepped _).startEvent.raise _ _ _
    · exact ((hstepped _).stepEvent _ _).raise _ _ _
  · next hsteps =>
    have hq : s.tb.quality ≠ .invalid := fun hi => hsteps (by simp [State.steps, hi])
    refine h.of_tb ?_ (by simp)
    rw [takeSlew_tb, State.slewed]
    exact ⟨h.ms, h.slewCount, h.linkDelay, by simp, by simp⟩

/-- R17: L follows the samples within 50,000. -/
theorem takeSample (h : s.TimeLegal) {m : Nat} (hm : m ≤ 50000) : (s.takeSample m).TimeLegal := by
  have hl := h.linkDelay
  refine h.of_tb ⟨h.ms, h.slewCount, ?_, h.parts.heldAtZero, h.timeout⟩ ⟨rfl, rfl⟩
  show Int.toNat _ ≤ 50000
  split <;> omega

theorem setEcho (h : s.TimeLegal) (e : EchoState) : (s.setEcho e).TimeLegal :=
  h.of_tb ⟨h.ms, h.slewCount, h.linkDelay, h.parts.heldAtZero, h.timeout⟩ ⟨rfl, rfl⟩

theorem takeEchoReply (h : s.TimeLegal) (tag : Byte) (payload : List Byte) : (s.takeEchoReply tag payload).TimeLegal := by
  unfold State.takeEchoReply
  split
  · split
    · dsimp only
      split
      · exact (h.of_parts (t := s.count .echoInvalid) (by simp)).setEcho _
      · exact (h.takeSample (by omega)).setEcho _
    · exact h.of_parts (by simp)
  · exact h.of_parts (by simp)
  · exact h.of_parts (by simp)

theorem echoRequest (h : s.TimeLegal) : s.echoRequest.TimeLegal := by
  have htag : ({ s with tb := { s.tb with echoTag := s.tb.echoTag + 1 } } : State).TimeLegal :=
    h.of_tb ⟨h.ms, h.slewCount, h.linkDelay, h.parts.heldAtZero, h.timeout⟩ (by simp)
  unfold State.echoRequest
  dsimp only
  split
  · split
    · exact (htag.of_parts (t := State.join _ _ _) (by simp)).setEcho _
    · exact htag.of_parts (by simp)
  · exact h

theorem echoPeriod (h : s.TimeLegal) (e : Option Nat) :
    ({ s with tb := { s.tb with echoPeriod := e } } : State).TimeLegal :=
  h.of_tb ⟨h.ms, h.slewCount, h.linkDelay, h.parts.heldAtZero, h.timeout⟩ (by simp)

theorem echoPeriodEnds (h : s.TimeLegal) : s.echoPeriodEnds.TimeLegal := by
  unfold State.echoPeriodEnds
  split
  · split
    · exact (h.echoPeriod _).echoRequest
    · exact h
  · exact h

theorem echoTimesOut (h : s.TimeLegal) : s.echoTimesOut.TimeLegal := by
  unfold State.echoTimesOut
  split
  · split
    · exact (h.of_parts (t := s.count .echoTimeout) (by simp)).setEcho _
    · exact h
  · exact h
  · exact h

/-- R14: the timeout ends in HOLDOVER. -/
theorem timeoutEnds (h : s.TimeLegal) : s.timeoutEnds.TimeLegal := by
  unfold State.timeoutEnds
  split
  · dsimp only
    split
    · refine h.of_tb ?_ (by simp)
      rw [setQuality_tb]
      exact ⟨h.ms, h.slewCount, h.linkDelay, by simp, by simp⟩
    · exact h.of_tb ⟨h.ms, h.slewCount, h.linkDelay, h.parts.heldAtZero, by simp⟩ (by simp)
  · exact h

theorem backupSecond (h : s.TimeLegal) : s.backupSecond.TimeLegal := by
  unfold State.backupSecond
  split
  · split
    · exact (timeLegal_iff _).mpr ⟨h.parts, h.default, Nat.zero_le _⟩
    · exact (timeLegal_iff _).mpr ⟨h.parts, h.default, by show s.rs.second + 1 ≤ 86399; omega⟩
  · exact h

/-! ## The line and the resets -/

theorem startTransmission (h : s.TimeLegal) (p : PortId) : (s.startTransmission p).TimeLegal := by
  unfold State.startTransmission
  split
  · split
    · dsimp only
      split
      · exact setEcho (h.of_parts (by simp)) _
      · exact h.of_parts (by simp)
    · exact h
  · exact h

theorem trained (h : s.TimeLegal) (p : PortId) : (s.trained p).TimeLegal := by
  unfold State.trained State.attached
  split
  · split
    · exact (((h.setPort _ _).echoPeriod _).echoRequest).raise _ _ _
    · exact (h.setPort _ _).raise _ _ _
  · exact h

theorem lineReset (h : s.TimeLegal) : s.lineReset.TimeLegal := by
  refine h.of_tb ?_ (by simp)
  rw [lineReset_tb]
  exact h.parts.unsynced (by split <;> simp) _

theorem askLineReset (h : s.TimeLegal) (tag : Byte) : (s.askLineReset tag).TimeLegal := by
  unfold State.askLineReset
  split
  · exact h.of_parts (by simp)
  · dsimp only
    split
    · exact h.of_parts (by simp)
    · exact lineReset (h.of_parts (by simp))

theorem transmissionEnds (h : s.TimeLegal) (p : PortId) : (s.transmissionEnds p).TimeLegal := by
  unfold State.transmissionEnds
  split
  · split
    · dsimp only
      split
      · exact lineReset (h.of_parts (by simp))
      · exact h.of_parts (by simp)
    · exact h
  · exact h

theorem portLost (h : s.TimeLegal) (flushed : List QItem) (p : PortId) : (s.portLost flushed p).TimeLegal := by
  unfold State.portLost
  split
  · exact h.of_parts (by simp)
  · have hcut : ({ s.cutCalls with tb := { s.cutCalls.tb with echo := .idle, echoPeriod := none } } : State).TimeLegal := by
      refine h.of_tb ?_ (by simp)
      simp only [State.cutCalls_keeps]
      exact ⟨h.ms, h.slewCount, h.linkDelay, h.parts.heldAtZero, h.timeout⟩
    dsimp only
    split
    · exact hcut.lineReset
    · exact hcut

theorem signalLost (h : s.TimeLegal) (p : PortId) : (s.signalLost p).TimeLegal := by
  unfold State.signalLost
  dsimp only
  split
  · refine portLost ?_ _ _
    split <;> exact h.of_parts (by simp)
  · exact h

theorem hold (h : s.TimeLegal) (cause : ResetCause) : (s.hold cause).TimeLegal := by
  refine h.of_tb (t := s.hold cause) ⟨h.ms, h.slewCount, h.linkDelay, h.parts.heldAtZero, by simp [State.hold]⟩ ⟨rfl, ?_⟩
  simp only [State.hold, RetainedStore.kept]
  split <;> rfl

theorem backupLost (h : s.TimeLegal) : s.backupLost.TimeLegal := by
  refine h.of_parts ⟨by simp, by simp, ?_⟩
  simp only [State.backupLost, RetainedStore.kept]
  split <;> rfl

/-- R181, R189: the default link delay of the settings loaded lies in its range: an image's passes the check of NODECFG. -/
theorem loaded_linkDelay (i : Option Image) : (loadImage i).1.node.linkDelay ≤ 50000 := by
  cases i with
  | none => decide
  | some i =>
    show i.checked.node.linkDelay ≤ 50000
    simp only [Image.checked]
    split
    · next hgood =>
      have hnode : spaceGood (fun _ => decNode) encNode #v[i.node] = true := hgood
      have hdec : decNode (encNode i.node) = some i.node := by simpa [spaceGood] using hnode
      have hg := good_of_decNode hdec
      simp only [NodeCfg.good, Bool.and_eq_true, decide_eq_true_eq] at hg
      tauto
    · decide

theorem release (h : s.TimeLegal) (key : Bool) (sweeps : Byte) (supply : Bool) :
    (s.release key sweeps supply).TimeLegal := by
  have hl := loaded_linkDelay s.image
  have hsecond := h.second
  have hvalues : (s.fullResetValues key sweeps supply).TimeLegal := by
    refine (timeLegal_iff _).mpr ⟨?_, hl, ?_⟩
    · show (Timebase.started _ s.rs).Legal
      unfold Timebase.started
      split
      · refine ⟨?_, by show 0 < 50; omega, hl, by simp, by simp [Timebase.reset]⟩
        show s.rs.second * 1000 < 86400000
        omega
      · exact ⟨by show 0 < 86400000; omega, by show 0 < 50; omega, hl, fun _ => ⟨rfl, rfl⟩, by simp [Timebase.reset]⟩
    · show (s.rs.checked _).second ≤ 86399
      unfold RetainedStore.checked
      split
      · exact hsecond
      · exact Nat.zero_le _
  unfold State.release
  dsimp only
  split
  · exact of_parts (s := s.fullResetValues key sweeps supply) hvalues (by simp [State.startBackup])
  · exact hvalues.of_parts (by simp)

/-! ## Settings -/

/-- R17, R181: L follows a default link delay in its range. -/
theorem changeNode (h : s.TimeLegal) (start : Nat) {rs : List (Option NodeCfg)}
    (hrs : ∀ n, some n ∈ rs → n.good = true) : (s.changeNode start rs).TimeLegal := by
  have hnode : (writeRecords #v[s.mu.node] start rs)[0].linkDelay ≤ 50000 := by
    simp only [writeRecords, Vector.getElem_ofFn]
    split
    · split
      · next n hn =>
        have hg := hrs n (List.mem_of_getElem? hn)
        simp only [NodeCfg.good, Bool.and_eq_true, decide_eq_true_eq] at hg
        tauto
      · exact h.default
    · exact h.default
  unfold State.changeNode
  dsimp only
  split
  · exact (timeLegal_iff _).mpr ⟨h.parts, hnode, h.second⟩
  · exact (timeLegal_iff _).mpr ⟨⟨h.ms, h.slewCount, hnode, h.parts.heldAtZero, h.timeout⟩, hnode, h.second⟩

end State.TimeLegal

end Sys2Proof.Machine

/-! PROOFS. The ranges of the Timebase (Chapter 1): every step keeps them. -/

namespace Sys2Proof.Machine

/-! ## Acts that leave Timebase, settings and backup time -/

@[simp] theorem chimeEnds_keeps (s : State) (r : Fin 8) :
    (s.chimeEnds r).now = s.now ∧ (s.chimeEnds r).held = s.held ∧ (s.chimeEnds r).mainPower = s.mainPower ∧
    (s.chimeEnds r).line = s.line ∧ (s.chimeEnds r).tb = s.tb ∧ (s.chimeEnds r).zm = s.zm ∧ (s.chimeEnds r).bs = s.bs ∧
    (s.chimeEnds r).za = s.za ∧ (s.chimeEnds r).cld = s.cld ∧ (s.chimeEnds r).csv = s.csv ∧ (s.chimeEnds r).fdc = s.fdc ∧
    (s.chimeEnds r).mu = s.mu ∧ (s.chimeEnds r).rs = s.rs ∧ (s.chimeEnds r).image = s.image ∧
    (s.chimeEnds r).counters = s.counters ∧ (s.chimeEnds r).draws = s.draws ∧ (s.chimeEnds r).pending = s.pending := by
  unfold State.chimeEnds
  (repeat' split) <;> simp

@[simp] theorem frameClock_keeps (s : State) :
    s.frameClock.now = s.now ∧ s.frameClock.held = s.held ∧ s.frameClock.mainPower = s.mainPower ∧
    s.frameClock.line = s.line ∧ s.frameClock.tb = s.tb ∧ s.frameClock.zm = s.zm ∧ s.frameClock.bs = s.bs ∧
    s.frameClock.cld = s.cld ∧ s.frameClock.fdc = s.fdc ∧ s.frameClock.mu = s.mu ∧ s.frameClock.rs = s.rs ∧
    s.frameClock.image = s.image ∧ s.frameClock.pending = s.pending := by
  unfold State.frameClock
  split <;> simp

@[simp] theorem silenceEnds_keeps (s : State) (r : Fin 8) :
    (s.silenceEnds r).now = s.now ∧ (s.silenceEnds r).held = s.held ∧ (s.silenceEnds r).mainPower = s.mainPower ∧
    (s.silenceEnds r).tb = s.tb ∧ (s.silenceEnds r).zm = s.zm ∧ (s.silenceEnds r).bs = s.bs ∧ (s.silenceEnds r).cld = s.cld ∧
    (s.silenceEnds r).fdc = s.fdc ∧ (s.silenceEnds r).mu = s.mu ∧ (s.silenceEnds r).rs = s.rs ∧
    (s.silenceEnds r).image = s.image ∧ (s.silenceEnds r).pending = s.pending := by
  unfold State.silenceEnds
  (repeat' split) <;> simp

@[simp] theorem takeBellNow_keeps (s : State) (payload : List Byte) :
    (s.takeBellNow payload).now = s.now ∧ (s.takeBellNow payload).held = s.held ∧
    (s.takeBellNow payload).mainPower = s.mainPower ∧ (s.takeBellNow payload).tb = s.tb ∧ (s.takeBellNow payload).zm = s.zm ∧
    (s.takeBellNow payload).bs = s.bs ∧ (s.takeBellNow payload).pe = s.pe ∧ (s.takeBellNow payload).cld = s.cld ∧
    (s.takeBellNow payload).fdc = s.fdc ∧ (s.takeBellNow payload).mu = s.mu ∧ (s.takeBellNow payload).rs = s.rs ∧
    (s.takeBellNow payload).image = s.image ∧ (s.takeBellNow payload).pending = s.pending := by
  unfold State.takeBellNow
  dsimp only
  (repeat' split) <;> simp

@[simp] theorem dwellEnds_keeps (s : State) (reading : Byte) :
    (s.dwellEnds reading).now = s.now ∧ (s.dwellEnds reading).held = s.held ∧ (s.dwellEnds reading).mainPower = s.mainPower ∧
    (s.dwellEnds reading).tb = s.tb ∧ (s.dwellEnds reading).zm = s.zm ∧ (s.dwellEnds reading).bs = s.bs ∧
    (s.dwellEnds reading).pe = s.pe ∧ (s.dwellEnds reading).fdc = s.fdc ∧ (s.dwellEnds reading).mu = s.mu ∧
    (s.dwellEnds reading).rs = s.rs ∧ (s.dwellEnds reading).image = s.image ∧ (s.dwellEnds reading).pending = s.pending := by
  unfold State.dwellEnds
  (repeat' split) <;> simp

@[simp] theorem checkFire_keeps (s : State) (reading : Byte) :
    (s.checkFire reading).now = s.now ∧ (s.checkFire reading).held = s.held ∧ (s.checkFire reading).mainPower = s.mainPower ∧
    (s.checkFire reading).tb = s.tb ∧ (s.checkFire reading).zm = s.zm ∧ (s.checkFire reading).bs = s.bs ∧
    (s.checkFire reading).pe = s.pe ∧ (s.checkFire reading).cld = s.cld ∧ (s.checkFire reading).mu = s.mu ∧
    (s.checkFire reading).rs = s.rs ∧ (s.checkFire reading).image = s.image ∧ (s.checkFire reading).pending = s.pending := by
  unfold State.checkFire
  split <;> simp

@[simp] theorem progressDue_keeps (s : State) :
    s.progressDue.now = s.now ∧ s.progressDue.held = s.held ∧ s.progressDue.mainPower = s.mainPower ∧
    s.progressDue.tb = s.tb ∧ s.progressDue.zm = s.zm ∧ s.progressDue.bs = s.bs ∧ s.progressDue.za = s.za ∧
    s.progressDue.pe = s.pe ∧ s.progressDue.cld = s.cld ∧ s.progressDue.csv = s.csv ∧ s.progressDue.mu = s.mu ∧
    s.progressDue.rs = s.rs ∧ s.progressDue.image = s.image ∧ s.progressDue.pending = s.pending := by
  unfold State.progressDue
  (repeat' split) <;> simp

@[simp] theorem takeSweep_keeps (s : State) (i : Fin 8) :
    (s.takeSweep i).now = s.now ∧ (s.takeSweep i).held = s.held ∧ (s.takeSweep i).mainPower = s.mainPower ∧
    (s.takeSweep i).tb = s.tb ∧ (s.takeSweep i).zm = s.zm ∧ (s.takeSweep i).bs = s.bs ∧ (s.takeSweep i).pe = s.pe ∧
    (s.takeSweep i).cld = s.cld ∧ (s.takeSweep i).mu = s.mu ∧ (s.takeSweep i).rs = s.rs ∧ (s.takeSweep i).image = s.image ∧
    (s.takeSweep i).pending = s.pending := by
  unfold State.takeSweep State.afterStamp
  (repeat' split) <;> simp

@[simp] theorem setAddr_node (s : State) (h : Hdr) (addr : Word16) : (s.setAddr h addr).mu.node = s.mu.node := by
  unfold State.setAddr
  dsimp only
  (repeat' split) <;> simp

@[simp] theorem saveImage_node (s : State) (tag : Byte) : (s.saveImage tag).mu.node = s.mu.node := by
  unfold State.saveImage
  split <;> simp

@[simp] theorem saveDone_node (s : State) : s.saveDone.mu.node = s.mu.node := by
  unfold State.saveDone
  split <;> simp

/-! ## The backup time where clock lines write their retained positions (R120) -/

@[simp] theorem setRetained_second (s : State) (k : LineNo) (v : Retained) :
    (s.setRetained k v).rs.second = s.rs.second := rfl

@[simp] theorem resync_second (s : State) (k : LineNo) (i : Nat) (pol : Option Polarity) :
    (s.resync k i pol).rs.second = s.rs.second := by
  simp [State.resync]

@[simp] theorem endPulse_second (s : State) (k : LineNo) (pol : Polarity) (b : Bool) :
    (s.endPulse k pol b).rs.second = s.rs.second := by
  unfold State.endPulse
  dsimp only
  split <;> simp

@[simp] theorem checkPulse_keeps (s : State) (k : LineNo) (p : Pulse) (reading : Byte) :
    (s.checkPulse k p reading).now = s.now ∧ (s.checkPulse k p reading).held = s.held ∧
    (s.checkPulse k p reading).mainPower = s.mainPower ∧ (s.checkPulse k p reading).tb = s.tb ∧
    (s.checkPulse k p reading).zm = s.zm ∧ (s.checkPulse k p reading).bs = s.bs ∧ (s.checkPulse k p reading).pe = s.pe ∧
    (s.checkPulse k p reading).fdc = s.fdc ∧ (s.checkPulse k p reading).mu = s.mu ∧
    (s.checkPulse k p reading).image = s.image ∧ (s.checkPulse k p reading).pending = s.pending ∧
    (s.checkPulse k p reading).rs.second = s.rs.second := by
  unfold State.checkPulse State.pulseFault State.setPulse
  split <;> simp

@[simp] theorem resyncClock_second (tag line : Byte) (position : Word16) (polarity : Byte) (s : State) :
    (s.resyncClock tag line position polarity).rs.second = s.rs.second := by
  unfold State.resyncClock State.takeResync
  dsimp only
  (repeat' split) <;> simp

@[simp] theorem changeClocks_second (start : Nat) (rs : List (Option ClockCfg)) (s : State) :
    (s.changeClocks start rs).rs.second = s.rs.second := by
  have hchanged : ∀ (t : State) k, (t.clockCfgChanged k (s.clockCfg k)).rs.second = t.rs.second := fun t k => by
    unfold State.clockCfgChanged State.typeChange
    dsimp only
    (repeat' split) <;> simp
  unfold State.changeClocks
  exact foldl_part (fun s => s.rs.second) (g := fun t k => t.clockCfgChanged k (s.clockCfg k)) hchanged _ _

namespace State.TimeLegal

theorem lineKept : LineKept State.TimeLegal where
  elapse dt h := h.elapse dt
  count _ h := h.of_parts (by simp)
  draw h := h.of_parts (by simp)
  reply _ _ _ _ h := h.of_parts (by simp)
  endReception _ h := h.of_parts (by simp)
  beginReception _ h := h.of_parts (by simp)
  learnAt _ h := h.of_parts (by simp)
  joinDown _ _ h := h.of_parts (by simp)
  relayUp _ h := h.of_parts (by simp)
  signalPresent _ h := h.of_parts (by simp)
  debounced _ h := h.of_parts (by simp)
  retrain _ h := h.of_parts (by simp)
  trained p h := h.trained p
  attachLost _ h := h.of_parts (by simp)
  signalLost p h := h.signalLost p
  startTransmission p h := h.startTransmission p
  transmissionEnds p h := h.transmissionEnds p

theorem timeKept : TimeKept State.TimeLegal where
  acceptTime hf lag b h := h.acceptTime hf lag b
  takeEchoReply tag payload h := h.takeEchoReply tag payload
  localTickEvent b h := h.localTickEvent b
  timeoutEnds h := h.timeoutEnds
  echoPeriodEnds h := h.echoPeriodEnds
  echoTimesOut h := h.echoTimesOut
  backupSecond h := h.backupSecond

theorem soundKept : SoundKept State.TimeLegal where
  takeAudio _ h := h.of_parts (by simp)
  takeOpen _ h := h.of_parts (by simp)
  takeClose _ h := h.of_parts (by simp)
  chimeEnds _ h := h.of_parts (by simp)
  chimePhaseEnd _ h := h.of_parts (by simp)
  frameClock h := h.of_parts (by simp)
  silenceEnds _ h := h.of_parts (by simp)
  takeBellNow _ h := h.of_parts (by simp)
  takeSelect _ h := h.of_parts (by simp)
  bellEnds _ h := h.of_parts (by simp)
  outputPhaseEnd _ h := h.of_parts (by simp)

theorem plantKept : PlantKept State.TimeLegal where
  checkPulse _ _ _ h := h.of_parts (by simp)
  endPulse _ _ _ h := h.of_parts (by simp)
  evaluate _ h := h.of_parts (by simp)
  dwellEnds _ h := h.of_parts (by simp)
  checkFire _ h := h.of_parts (by simp)
  takeStart _ _ _ _ h := h.of_parts (by simp)
  takeAbort _ h := h.of_parts (by simp)
  takeAllClear _ h := h.of_parts (by simp)
  evacuateNow _ h := h.of_parts (by simp)
  holdNow _ h := h.of_parts (by simp)
  allClearNow _ _ h := h.of_parts (by simp)
  endDrillNow _ _ h := h.of_parts (by simp)
  progressDue h := h.of_parts (by simp)
  setHoldKey _ h := h.of_parts (by simp)
  setSweeps _ h := h.of_parts (by simp)
  takeSweep _ h := h.of_parts (by simp)

theorem requestKept : RequestKept State.TimeLegal where
  unassignedEnds h := h.of_parts (by simp)
  setAddr _ _ h := h.of_parts (by simp)
  clearCounters _ _ h := h.of_parts (by simp)
  activate _ h := h.of_parts (by simp)
  resyncClock _ _ _ _ h := h.of_parts (by simp)
  recover _ _ h := h.of_parts (by simp)
  applyOn _ h := h.of_parts (by simp)
  applyOff _ h := h.of_parts (by simp)
  applyRelease _ h := h.of_parts (by simp)
  saveImage _ h := h.of_parts (by simp)
  saveDone h := h.of_parts (by simp)
  askLineReset tag h := h.askLineReset tag

theorem writeKept : WriteKept State.TimeLegal where
  changeSched _ _ _ h := h.of_parts (by simp)
  changeCalendar _ _ h := h.of_parts (by simp)
  changeWeek _ _ h := h.of_parts (by simp)
  changeWindows _ _ h := h.of_parts (by simp)
  changeAttrs _ _ h := h.of_parts (by simp)
  changeTones _ _ h := h.of_parts (by simp)
  changeClocks _ _ h := h.of_parts (by simp)
  changeSups _ _ h := h.of_parts (by simp)
  changeDrills _ _ h := h.of_parts (by simp)
  changeNode start _ hrs h := h.changeNode start hrs
  hold cause h := h.hold cause
  release key sweeps supply h := h.release key sweeps supply
  backupLost h := h.backupLost

/-- Chapter 1: every act keeps the ranges of the Timebase. -/
theorem kept : Kept State.TimeLegal := ⟨lineKept, timeKept, soundKept, plantKept, requestKept, writeKept⟩

end State.TimeLegal

/-- Settles O57: the acts that move T, L or the backup time each keep their ranges, and every other act leaves them. -/
theorem timeStaysLegal : Obligations.TimeStaysLegal := fun _ _ h hstep =>
  State.TimeLegal.kept.step (fun s q h => h.of_parts (t := { s with pending := q }) ⟨rfl, rfl, rfl⟩) h hstep

end Sys2Proof.Machine

/-! PROOFS. What every block keeps of the line's queues and of the counters (R37, Conventions): each act is made of counts,
of joins and of writes elsewhere, and a property kept by counts and joins is kept by every act. -/

namespace Sys2Proof.Machine

/-- P reads the queue lengths and the counters, and is kept where they do not grow, by a count and by a join. -/
structure Tame (P : State → Prop) : Prop where
  shrink {s t : State} : P s → (∀ q, (t.queue q).length ≤ (s.queue q).length) → (∀ c, t.counter c ≤ s.counter c) → P t
  countN {s : State} (c : Counter) (n : Nat) : P s → P (s.countN c n)
  join {s : State} (q : QueueId) (i : QItem) : P s → P (s.join q i)

namespace Tame

variable {P : State → Prop} {s t : State} {α : Type}

/-! ## Writes elsewhere, counts, notices and replies -/

theorem quiet (k : Tame P) (h : P s) (he : t.line = s.line ∧ t.counters = s.counters) : P t :=
  k.shrink h (fun q => by cases q <;> simp [State.queue, he.1]) (fun c => by simp [State.counter, he.2])

theorem count (k : Tame P) (h : P s) (c : Counter) : P (s.count c) := k.countN c 1 h

theorem joinOwn (k : Tame P) (h : P s) (f : Frame) (g : Origin) (lost : Counter) : P (s.joinOwn f g lost) := by
  unfold State.joinOwn
  split
  · exact k.join _ _ h
  · exact k.count (k.join _ _ h) _

theorem raise (k : Tame P) (h : P s) (c : NoticeClass) (n : Nat) (a : List Byte) : P (s.raise c n a) := by
  unfold State.raise
  split
  · exact k.joinOwn h _ _ _
  · exact h

theorem reply (k : Tame P) (h : P s) (tag req : Byte) (st : Status) (r : List Byte) : P (s.reply tag req st r) := by
  unfold State.reply
  split
  · exact k.joinOwn h _ _ _
  · exact k.joinOwn (k.count h _) _ _ _

theorem draw (k : Tame P) (h : P s) : P s.draw.2 := k.quiet h (by simp)

theorem ite (_k : Tame P) {c : Prop} [Decidable c] (hs : P s) (ht : P t) : P (if c then s else t) := by split <;> assumption

theorem foldl (_k : Tame P) {g : State → α → State} (hg : ∀ s a, P s → P (g s a)) (h : P s) (l : List α) : P (l.foldl g s) := by
  induction l generalizing s with
  | nil => exact h
  | cons a l ih => exact ih (hg s a h)

/-! ## The scan (R141 to R143) -/

theorem setScan (k : Tame P) (h : P s) (v : Scan) : P (s.setScan v) := k.quiet h (by simp)

theorem visit (k : Tame P) (last : Circuit) (ds : List Circuit) (h : P s) : P (Machine.visit last ds s) := by
  induction ds generalizing s last with
  | nil => exact k.setScan (k.draw (k.countN _ _ h)) _
  | cons d ds ih =>
    unfold Machine.visit
    split
    · exact ih _ (k.count h _)
    · exact k.setScan h _

theorem scanNext (k : Tame P) (h : P s) (c : Circuit) : P (s.scanNext c) := by
  unfold State.scanNext
  split
  · exact k.setScan h _
  · exact k.visit _ _ h

theorem settleScan (k : Tame P) (h : P s) : P (Machine.settleScan s) := by
  unfold Machine.settleScan
  split
  · exact h
  · exact k.ite (k.scanNext (k.count h _) _) h
  · exact k.ite h (k.scanNext h _)

theorem elapse (k : Tame P) (h : P s) (dt : Nat) : P (s.elapse dt) := by
  have hskips : P s.skipsGoOn := by
    unfold State.skipsGoOn
    split
    · exact k.countN _ _ (k.draw h)
    · exact h
    · exact h
  unfold State.elapse
  split
  · exact k.quiet h (by simp)
  · exact k.quiet hskips (by simp)

/-! ## The Zone Arbiter (R81 to R89, R94) -/

theorem setOut (k : Tame P) (h : P s) (o : Output) (v : OutputState) : P (s.setOut o v) := k.quiet h (by simp)

theorem settleClip (k : Tame P) (h : P s) (o : Output) : P (s.settleClip o) := by
  unfold State.settleClip
  split
  · exact k.ite (k.count (k.setOut h _ _) _) h
  · exact h

theorem stopPlay (k : Tame P) (h : P s) (o : Output) : P (s.stopPlay o) := k.setOut (k.settleClip h o) _ _

theorem takeOutput (k : Tame P) (h : P s) (o : Output) : P (s.takeOutput o) := k.setOut (k.stopPlay h o) _ _

theorem rechoose (k : Tame P) (h : P s) (o : Output) : P (s.rechoose o) := by
  unfold State.rechoose
  split
  · exact h
  · exact k.takeOutput (k.setOut (k.stopPlay h o) _ _) o

theorem rechooseAll (k : Tame P) (h : P s) (os : List Output) : P (Machine.rechooseAll os s) := by
  unfold Machine.rechooseAll
  exact k.settleScan (k.foldl (fun _ o hs => k.rechoose hs o) h os)

theorem dropClaim (k : Tame P) (h : P s) (src : Source) (o : Output) : P (s.dropClaim src o) := by
  unfold State.dropClaim
  split
  · dsimp only
    refine k.setOut ?_ _ _
    exact k.ite (k.setOut (k.stopPlay h o) _ _) h
  · exact h

theorem addClaim (k : Tame P) (h : P s) (c : Claim) (o : Output) : P (s.addClaim c o) :=
  k.ite (k.count (k.setOut (k.dropClaim h _ o) _ _) _) (k.setOut (k.dropClaim h _ o) _ _)

theorem outputPhaseEnd (k : Tame P) (h : P s) (o : Output) : P (s.outputPhaseEnd o) := by
  unfold State.outputPhaseEnd
  split
  · split
    · split
      · exact k.settleScan (k.setOut h _ _)
      · exact k.settleScan (k.setOut h _ _)
    · exact h
  · exact h

/-! ## Clock lines (R123 to R133) -/

theorem setClockLine (k : Tame P) (h : P s) (n : LineNo) (v : ClockLine) : P (s.setClockLine n v) := k.quiet h (by simp)

theorem setRetained (k : Tame P) (h : P s) (n : LineNo) (v : Retained) : P (s.setRetained n v) := k.quiet h (by simp)

theorem enterMode (k : Tame P) (h : P s) (n : LineNo) (m : ClockMode) (d : Nat) : P (s.enterMode n m d) := by
  have hraise : ∀ {u : State} {c : Prop} [Decidable c] {x y z}, P u → P (if c then u.raise x y z else u) :=
    fun hu => k.ite (k.raise hu _ _ _) hu
  unfold State.enterMode
  dsimp only
  refine k.setClockLine ?_ _ _
  split
  · exact k.raise (hraise (hraise h)) _ _ _
  · exact hraise (hraise h)

theorem startPulse (k : Tame P) (h : P s) (n : LineNo) : P (s.startPulse n) := k.settleScan (k.setClockLine h _ _)

theorem pulseOrWait (k : Tame P) (h : P s) (n : LineNo) : P (s.pulseOrWait n) := by
  unfold State.pulseOrWait
  dsimp only
  split
  · exact k.ite h (k.startPulse h n)
  · split
    · exact k.startPulse h n
    · exact k.ite (k.startPulse h n) (k.setClockLine h _ _)

theorem evaluate (k : Tame P) (h : P s) (n : LineNo) : P (s.evaluate n) := by
  unfold State.evaluate
  dsimp only
  split
  · exact h
  · split
    · exact k.setClockLine (k.enterMode h _ _ _) _ _
    · exact k.ite (k.pulseOrWait (k.enterMode h _ _ _) _) (k.setClockLine (k.enterMode h _ _ _) _ _)

theorem endPulse (k : Tame P) (h : P s) (n : LineNo) (pol : Polarity) (b : Bool) : P (s.endPulse n pol b) := by
  unfold State.endPulse
  dsimp only
  refine k.evaluate (k.settleScan (k.setClockLine ?_ _ _)) n
  exact k.ite (k.count (k.setRetained h _ _) _) (k.setRetained h _ _)

theorem resync (k : Tame P) (h : P s) (n : LineNo) (i : Nat) (pol : Option Polarity) : P (s.resync n i pol) :=
  k.evaluate (k.setRetained h _ _) n

theorem typeChange (k : Tame P) (h : P s) (n : LineNo) : P (s.typeChange n) := by
  unfold State.typeChange
  dsimp only
  split
  · exact k.setClockLine h _ _
  · exact k.evaluate (k.setClockLine (k.setRetained h _ _) _ _) n

theorem changeClocks (k : Tame P) (h : P s) (start : Nat) (rs : List (Option ClockCfg)) : P (s.changeClocks start rs) := by
  unfold State.changeClocks
  refine k.foldl (fun t n ht => ?_) (k.quiet h (by simp)) _
  exact k.ite (k.typeChange ht n) (k.ite (k.evaluate ht n) ht)

theorem resyncClock (k : Tame P) (h : P s) (tag line : Byte) (position : Word16) (polarity : Byte) :
    P (s.resyncClock tag line position polarity) := by
  have htake : ∀ n i pol, P (s.takeResync tag n i pol) := fun n i pol =>
    k.ite (k.setClockLine (k.count (k.reply h _ _ _ _) _) _ _) (k.resync (k.count (k.reply h _ _ _ _) _) _ _ _)
  unfold State.resyncClock
  dsimp only
  split
  · exact k.ite (k.reply h _ _ _ _) (k.ite (k.reply h _ _ _ _) (htake _ _ _))
  · exact k.reply h _ _ _ _

theorem stepBoundary (k : Tame P) (h : P s) (n : Nat) : P (s.stepBoundary n) := by
  unfold State.stepBoundary
  refine k.foldl (fun t l ht => ?_) h _
  split
  · exact ht
  · exact k.ite (k.evaluate ht l) ht
  · exact k.evaluate ht l

theorem evaluateAll (k : Tame P) (h : P s) : P s.evaluateAll := by
  unfold State.evaluateAll
  exact k.foldl (fun _ l ht => k.ite ht (k.evaluate ht l)) h _

/-! ## Circuits (R144 to R150) -/

theorem setCirc (k : Tame P) (h : P s) (c : Circuit) (v : CircRecord) : P (s.setCirc c v) := k.quiet h (by simp)

theorem faultSeen (k : Tame P) (h : P s) (c : Circuit) : P (s.faultSeen c) := by
  unfold State.faultSeen
  split
  · exact k.ite (k.settleScan (k.stopPlay h _)) h
  · exact k.evaluate h _
  · exact h

theorem faultLeft (k : Tame P) (h : P s) (c : Circuit) (was : Bool) : P (s.faultLeft c was) := by
  unfold State.faultLeft
  split
  · exact k.ite (k.settleScan (k.takeOutput h _)) h
  · exact k.evaluate h _
  · exact h

theorem enterFault (k : Tame P) (h : P s) (c : Circuit) (kind : FaultKind) (reading : Byte) (i p : Bool) :
    P (s.enterFault c kind reading i p) :=
  k.faultSeen (k.raise (k.count (k.setCirc h _ _) _) _ _ _) c

theorem leaveFault (k : Tame P) (h : P s) (c : Circuit) (cr : CircRecord) (cause : RecoverCause) :
    P (s.leaveFault c cr cause) :=
  k.faultLeft (k.raise (k.count (k.setCirc h _ _) _) _ _ _) c _

theorem judge (k : Tame P) (h : P s) (c : Circuit) (reading : Byte) : P (s.judge c reading) := by
  have hout : ∀ kind, P (s.outOfBand c kind reading) := fun kind =>
    k.ite (k.enterFault h _ _ _ _ _) (k.setCirc h _ _)
  have hfaultOut : ∀ kind, P (s.faultOutOfBand c kind reading) := fun kind =>
    k.ite (k.setCirc h _ _) (k.raise (k.setCirc h _ _) _ _ _)
  have hinner : P (s.faultInner c reading) :=
    k.ite (k.leaveFault h _ _ _) (k.ite (k.setCirc h _ _) (k.raise (k.setCirc h _ _) _ _ _))
  exact k.ite (k.ite (hfaultOut _) (k.ite (hfaultOut _) (k.ite hinner (k.setCirc h _ _))))
    (k.ite (hout _) (k.ite (hout _) (k.setCirc h _ _)))

theorem currentFault (k : Tame P) (h : P s) (n : LineNo) (kind : FaultKind) (reading : Byte) :
    P (s.currentFault n kind reading) := k.ite (k.enterFault h _ _ _ _ _) h

theorem checkPulse (k : Tame P) (h : P s) (n : LineNo) (p : Pulse) (reading : Byte) : P (s.checkPulse n p reading) := by
  unfold State.checkPulse State.pulseFault State.setPulse
  split
  · exact k.endPulse (k.raise (k.count (k.currentFault h _ _ _) _) _ _ _) _ _ _
  · exact k.raise (k.count (k.currentFault (k.setClockLine h _ _) _ _ _) _) _ _ _
  · exact k.setClockLine h _ _

theorem dwellEnds (k : Tame P) (h : P s) (reading : Byte) : P (s.dwellEnds reading) := by
  unfold State.dwellEnds
  split
  · exact k.ite (k.scanNext (k.judge (k.setScan h _) _ _) _) h
  · exact h
  · exact h

theorem changeSups (k : Tame P) (h : P s) (start : Nat) (rs : List (Option SupCfg)) : P (s.changeSups start rs) := by
  unfold State.changeSups
  dsimp only
  have hoff : ∀ (u : State) c, P u → P (u.disable c) := fun u c hu => k.ite (k.leaveFault hu _ _ _) (k.setCirc hu _ _)
  generalize hl : List.filter _ allCircuits = l
  have hdisabled : P (l.foldl State.disable
      { s with csv := { s.csv with cfg := writeRecords s.csv.cfg start rs, scan := .idle } }) := k.foldl hoff (k.quiet h (by simp)) l
  unfold State.scanAfterWrite
  split
  · exact k.ite (k.scanNext hdisabled _) (k.setScan hdisabled _)
  · exact k.ite (k.settleScan (k.setScan hdisabled _)) (k.scanNext hdisabled _)
  · exact k.ite (k.setScan hdisabled _) (k.settleScan (k.setScan hdisabled _))

theorem recover (k : Tame P) (h : P s) (tag circuit : Byte) : P (s.recover tag circuit) := by
  unfold State.recover
  split
  · exact k.ite (k.ite (k.leaveFault (k.reply h _ _ _ _) _ _ _) (k.reply h _ _ _ _)) (k.reply h _ _ _ _)
  · exact k.reply h _ _ _ _

/-! ## The Fire and Drill Controller (R154 to R173) -/

theorem setDrill (k : Tame P) (h : P s) (d : Option Drill) : P (s.setDrill d) := k.quiet h (by simp)

theorem setFire (k : Tame P) (h : P s) (f : FireState) (n : Nat) : P (s.setFire f n) := k.quiet h (by simp)

theorem setFireSet (k : Tame P) (h : P s) (set : Option (List Output)) : P (s.setFireSet set) :=
  k.quiet h ⟨rfl, rfl⟩

theorem mapRoll (k : Tame P) (h : P s) (f : RollCall → RollCall) : P (s.mapRoll f) := k.quiet h (by simp)

theorem fdcClaims (k : Tame P) (h : P s) (set : List Output) (cls pattern : Nat) : P (s.fdcClaims set cls pattern) := by
  unfold State.fdcClaims
  exact k.foldl (fun _ _ hs => k.ite (k.addClaim hs _ _) (k.dropClaim hs _ _)) h _

theorem fdcRelease (k : Tame P) (h : P s) : P s.fdcRelease := by
  unfold State.fdcRelease
  exact k.foldl (fun _ _ hs => k.dropClaim hs _ _) h _

theorem endDrill (k : Tame P) (h : P s) (d : Drill) (o : DrillOutcome) : P (s.endDrill d o) :=
  k.raise (k.ite (k.mapRoll (k.setDrill (k.fdcRelease h) _) _) (k.setDrill (k.fdcRelease h) _)) _ _ _

theorem enterAllClear (k : Tame P) (h : P s) (d : Drill) (b : Bool) : P (s.enterAllClear d b) := by
  unfold State.enterAllClear
  exact k.ite (k.endDrill (k.mapRoll h _) _ _) (k.fdcClaims (k.setDrill (k.mapRoll h _) _) _ _ _)

theorem enterHold (k : Tame P) (h : P s) (d : Drill) : P (s.enterHold d) := by
  unfold State.enterHold
  exact k.ite (k.enterAllClear (k.mapRoll (k.setDrill (k.fdcRelease h) _) _) _ _)
    (k.ite (k.enterAllClear (k.mapRoll (k.setDrill (k.fdcRelease h) _) _) _ _)
      (k.mapRoll (k.setDrill (k.fdcRelease h) _) _))

theorem openRoll (k : Tame P) (h : P s) (kind : RollKind) (id : Word16) (program : Option (Fin 4)) (mask : Byte)
    (phase : Nat) : P (s.openRoll kind id program mask phase) := k.quiet h (by simp)

theorem enterEvacuate (k : Tame P) (h : P s) (d : Drill) : P (s.enterEvacuate d) :=
  k.openRoll (k.fdcClaims (k.setDrill h _) _ _ _) _ _ _ _ _

theorem startDrill (k : Tame P) (h : P s) (d : Drill) : P (s.startDrill d) :=
  k.ite (k.enterEvacuate (k.raise (k.count h _) _ _ _) _)
    (k.fdcClaims (k.setDrill (k.raise (k.count h _) _ _ _) _) _ _ _)

theorem takeStart (k : Tame P) (h : P s) (id : Word16) (program : Fin 4) (day : Word16) (ms : Nat) :
    P (s.takeStart id program day ms) := by
  unfold State.takeStart State.refuseDrill
  dsimp only
  split
  · exact h
  · split
    · exact k.raise (k.count h _) _ _ _
    · exact k.raise (k.draw (k.count h _)) _ _ _
  · exact k.rechooseAll (k.startDrill h _) _
  · exact k.raise (k.setDrill h _) _ _ _

theorem drillReached (k : Tame P) (h : P s) (day : Word16) (ms : Nat) : P (s.drillReached day ms) := by
  unfold State.drillReached
  split
  · exact k.ite (k.rechooseAll (k.startDrill h _) _) h
  · exact h

theorem takeAbort (k : Tame P) (h : P s) (id : Word16) : P (s.takeAbort id) := by
  unfold State.takeAbort
  split
  · exact k.ite (k.rechooseAll (k.endDrill h _ _) _) (k.count h _)
  · exact k.count h _

theorem takeAllClear (k : Tame P) (h : P s) (id : Word16) : P (s.takeAllClear id) := by
  unfold State.takeAllClear
  split
  · refine k.ite ?_ (k.count h _)
    split
    · exact k.rechooseAll (k.endDrill h _ _) _
    · exact k.rechooseAll (k.endDrill h _ _) _
    · exact k.rechooseAll (k.enterAllClear h _ _) _
    · exact k.rechooseAll (k.enterAllClear h _ _) _
    · exact h
  · exact k.count h _

theorem enterFire (k : Tame P) (h : P s) (reading : Byte) : P (s.enterFire reading) := by
  have hsupersede : P s.supersede := by
    unfold State.supersede
    split
    · exact k.raise (k.setDrill h _) _ _ _
    · exact h
  have hclaims : ∀ u, P u → P u.fireClaims := fun u hu =>
    k.ite (k.setFireSet (k.fdcClaims hu _ _ _) _) (k.setFireSet (k.fdcRelease hu) _)
  rw [enterFire_eq]
  exact k.rechooseAll (k.raise (k.count (k.openRoll (hclaims _ (k.setFire hsupersede _ _)) _ _ _ _ _) _) _ _ _) _

theorem fireRelease (k : Tame P) (h : P s) : P s.fireRelease := by
  unfold State.fireRelease
  exact k.setFireSet (k.foldl (fun _ _ hs => k.dropClaim hs _ _) h _) _

theorem leaveFire (k : Tame P) (h : P s) : P s.leaveFire := by
  have hquiet : P (((s.setFire .quiet 0).fireRelease).mapRoll RollCall.fireOver) :=
    k.mapRoll (k.fireRelease (k.setFire h _ _)) _
  rw [leaveFire_eq]
  refine k.rechooseAll ?_ _
  split
  · exact k.raise hquiet _ _ _
  · exact hquiet

theorem moveFire (k : Tame P) (h : P s) (f : FireState) (n : Nat) : P (s.moveFire f n) := k.mapRoll (k.setFire h _ _) _

theorem fireActive (k : Tame P) (h : P s) (reading : Byte) : P (s.fireActive reading) := by
  unfold State.fireActive
  dsimp only
  split
  · exact k.ite (k.enterFire h _) (k.setFire h _ _)
  · exact k.ite (k.enterFire h _) (k.setFire h _ _)
  · exact h
  · exact k.moveFire h _ _

theorem fireInactive (k : Tame P) (h : P s) : P s.fireInactive := by
  unfold State.fireInactive
  dsimp only
  split
  · exact h
  · exact k.setFire h _ _
  · exact k.ite (k.leaveFire h) (k.moveFire h _ _)
  · exact k.ite (k.leaveFire h) (k.setFire h _ _)

theorem checkFire (k : Tame P) (h : P s) (reading : Byte) : P (s.checkFire reading) := by
  have htroubled : ∀ u, P u → P (u.fireTroubled reading) := fun u hu =>
    k.ite (k.raise (k.count (k.quiet hu (by simp)) _) _ _ _) (k.quiet hu (by simp))
  have hends : ∀ u, P u → P (u.troubleEnds reading) := fun u hu => k.ite (k.raise (k.quiet hu (by simp)) _ _ _) (k.quiet hu (by simp))
  have hnext : P { s with fdc := { s.fdc with nextCheck := s.fdc.nextCheck + Config.fireCheckUs } } := k.quiet h (by simp)
  refine k.ite ?_ h
  unfold State.fireReading
  split
  · exact htroubled _ hnext
  · exact k.fireActive (hends _ hnext) _
  · exact k.fireInactive (hends _ hnext)

theorem progressDue (k : Tame P) (h : P s) : P s.progressDue := by
  unfold State.progressDue
  split
  · exact k.ite (k.raise (k.setDrill h _) _ _ _) h
  · exact h

theorem takeSweep (k : Tame P) (h : P s) (i : Fin 8) : P (s.takeSweep i) := by
  unfold State.takeSweep State.afterStamp
  split
  · refine k.ite ?_ (k.count h _)
    split
    · exact k.ite (k.rechooseAll (k.enterAllClear (k.quiet h (by simp)) _ _) _) (k.quiet h (by simp))
    · exact k.quiet h (by simp)
  · exact k.count h _

/-! ## The Bell Scheduler (R61 to R75) -/

theorem countResolution (k : Tame P) (h : P s) (t : Target) (r : Resolved) : P (s.countResolution t r) :=
  k.countN _ _ (k.ite (k.count h _) h)

theorem ring (k : Tame P) (h : P s) (t : Target) (q : Bool) (pattern duration : Nat) :
    P (s.ring t q pattern duration) := by
  unfold State.ring
  exact k.ite (k.count (k.countResolution h _ _) _)
    (k.count (k.rechooseAll (k.foldl (fun _ _ hs => k.addClaim hs _ _) (k.countResolution h _ _) _) _) _)

theorem fireBell (k : Tame P) (h : P s) (skip : Bool) (t : Target) (q : Bool) (pattern duration : Nat) :
    P (s.fireBell skip t q pattern duration) :=
  k.ite (k.count h _) (k.ite (k.count h _) (k.ring h _ _ _ _))

theorem fireDrillEntry (k : Tame P) (h : P s) (program : Fin 4) : P (s.fireDrillEntry program) := by
  unfold State.fireDrillEntry
  dsimp only
  split
  · exact k.takeStart h _ _ _ _
  · exact k.count (k.takeStart h _ _ _ _) _
  · exact k.count (k.takeStart h _ _ _ _) _
  · exact k.takeStart h _ _ _ _

theorem processEntry (k : Tame P) (h : P s) (i : Fin 256) : P (s.processEntry i) := by
  unfold State.processEntry
  dsimp only
  refine k.ite ?_ h
  split
  · exact h
  · exact k.fireBell h _ _ _ _ _
  · exact k.fireDrillEntry h _

theorem processEntries (k : Tame P) (h : P s) (is : List (Fin 256)) : P (s.processEntries is) := by
  unfold State.processEntries
  exact k.foldl (fun _ i hs => k.processEntry hs i) h is

theorem setMark (k : Tame P) (h : P s) (hwm : Option Nat) : P (s.setMark hwm) := k.quiet h (by simp)

theorem derivePlan (k : Tame P) (h : P s) (day : Word16) : P (s.derivePlan day) :=
  k.ite (k.quiet h (by simp)) (k.raise (k.quiet h (by simp)) _ _ _)

theorem bellSecond (k : Tame P) (h : P s) (sec : Nat) : P (s.bellSecond sec) := by
  have hswap : P (s.swapBanks sec) := k.ite (k.raise (k.setMark (k.quiet h (by simp)) _) _ _ _) h
  exact k.ite (k.setMark (k.processEntries hswap _) _) hswap

theorem bellStep (k : Tame P) (h : P s) (e : StepEvent) : P (s.bellStep e) := by
  have hbackup : P (s.bellFromBackup e (e.newMs / 1000)) :=
    k.ite (k.setMark (k.derivePlan h _) _) (k.ite (k.setMark h _) h)
  have hday : P (s.bellOtherDay e (e.newMs / 1000)) :=
    k.setMark (k.ite (k.processEntries (k.derivePlan h _) _) (k.derivePlan h _)) _
  have hforward : P (s.bellForward (e.oldMs / 1000) (e.newMs / 1000)) :=
    k.ite (k.ite (k.setMark (k.processEntries (k.countN _ _ h) _) _)
      (k.raise (k.setMark (k.processEntries (k.countN _ _ h) _) _) _ _ _)) h
  exact k.ite hbackup (k.ite hday (k.ite hforward h))

/-! ## The Page Engine (R99 to R114) -/

theorem setCall (k : Tame P) (h : P s) (r : Fin 8) (c : Option Call) : P (s.setCall r c) := k.quiet h (by simp)

theorem releaseCall (k : Tame P) (h : P s) (r : Fin 8) : P (s.releaseCall r) := by
  unfold State.releaseCall
  exact k.setCall (k.foldl (fun _ _ ht => k.dropClaim ht _ _) h _) _ _

theorem closeCalls (k : Tame P) (h : P s) (rs : List (Fin 8)) : P (s.closeCalls rs) := by
  unfold State.closeCalls
  exact k.rechooseAll (k.foldl (fun _ r hs => k.releaseCall hs r) h rs) _

theorem pageClaims (k : Tame P) (h : P s) (r : Fin 8) (priority : Nat) (zones : List Output) :
    P (s.pageClaims r priority zones) := by
  unfold State.pageClaims
  exact k.foldl (fun _ _ hs => k.addClaim hs _ _) h _

theorem createCall (k : Tame P) (h : P s) (r : Fin 8) (f : OpenFields) (zones : List Output) :
    P (s.createCall r f zones) := by
  unfold State.createCall
  dsimp only
  refine k.rechooseAll (k.pageClaims ?_ _ _ _) _
  exact k.quiet h (by simp)

theorem reopenCall (k : Tame P) (h : P s) (r : Fin 8) (c : Call) (f : OpenFields) (zones : List Output) :
    P (s.reopenCall r c f zones) := by
  unfold State.reopenCall
  exact k.rechooseAll (k.pageClaims (k.foldl (fun _ _ hs => k.dropClaim hs _ _) (k.setCall h _ _) _) _ _ _) _

theorem takeOpen (k : Tame P) (h : P s) (payload : List Byte) : P (s.takeOpen payload) := by
  unfold State.takeOpen State.evictFor
  split
  · exact k.count h _
  · dsimp only
    refine k.ite (k.count (k.countResolution h _ _) _) ?_
    split
    · split
      · exact k.reopenCall (k.countResolution h _ _) _ _ _ _
      · exact k.countResolution h _ _
    · split
      · exact k.createCall (k.countResolution h _ _) _ _ _
      · split
        · exact k.ite (k.createCall (k.raise (k.count (k.closeCalls (k.countResolution h _ _) _) _) _ _ _) _ _ _)
            (k.raise (k.count (k.countResolution h _ _) _) _ _ _)
        · exact k.countResolution h _ _

theorem takeClose (k : Tame P) (h : P s) (payload : List Byte) : P (s.takeClose payload) := by
  unfold State.takeClose
  refine k.ite ?_ (k.count h _)
  split
  · exact h
  · split
    · exact h
    · split
      · exact k.closeCalls h _
      · exact h
      · exact k.ite (k.closeCalls h _) (k.setCall h _ _)
      · exact k.ite (k.closeCalls h _) (k.setCall h _ _)

theorem enqueueFrames (k : Tame P) (h : P s) (r : Fin 8) (c : Call) (n : Byte) (fs : List AudioFrame) :
    P (s.enqueueFrames r c n fs) := k.countN _ _ (k.setCall h _ _)

theorem takeAudio (k : Tame P) (h : P s) (payload : List Byte) : P (s.takeAudio payload) := by
  have hsequence : ∀ r c n f, P (s.takeSequence r c n f) := fun r c n f => by
    unfold State.takeSequence
    split
    · exact k.enqueueFrames h _ _ _ _
    · exact k.ite (k.enqueueFrames (k.countN _ _ h) _ _ _ _)
        (k.ite (k.enqueueFrames (k.count h _) _ _ _ _) (k.count (k.setCall h _ _) _))
  unfold State.takeAudio
  dsimp only
  split
  · split
    · exact h
    · split
      · exact h
      · split
        · exact k.count h _
        · exact k.count h _
        · exact hsequence _ _ _ _
        · exact hsequence _ _ _ _
  · exact k.count h _

theorem readLevel (k : Tame P) (h : P s) (r : Fin 8) (o : Output) : P (s.readLevel r o) := by
  unfold State.readLevel
  split
  · exact k.ite (k.setOut h _ _) h
  · exact h

theorem chimePhaseEnd (k : Tame P) (h : P s) (r : Fin 8) : P (s.chimePhaseEnd r) := by
  unfold State.chimePhaseEnd
  split
  · split
    · exact k.ite (k.ite (k.foldl (fun _ _ hs => k.readLevel hs _ _) (k.setCall h _ _) _) (k.setCall h _ _)) h
    · exact h
  · exact h

theorem chimeEnds (k : Tame P) (h : P s) (r : Fin 8) : P (s.chimeEnds r) := by
  unfold State.chimeEnds
  split
  · exact k.ite (k.setCall h _ _) h
  · exact h

theorem silenceEnds (k : Tame P) (h : P s) (r : Fin 8) : P (s.silenceEnds r) := by
  unfold State.silenceEnds
  split
  · exact k.ite (k.raise (k.count (k.closeCalls h _) _) _ _ _) h
  · exact h

theorem frameClock (k : Tame P) (h : P s) : P s.frameClock := by
  have htick : ∀ u r, P u → P (u.tickCall r) := fun u r hu => by
    unfold State.tickCall
    split
    · exact k.ite (k.count (k.setCall hu _ _) _) (k.setCall hu _ _)
    · exact hu
  have hhand : ∀ u o, P u → P (u.handFrame o) := fun u o hu => by
    unfold State.handFrame
    split
    · split
      · exact k.setOut hu _ _
      · exact hu
    · exact hu
  refine k.ite ?_ h
  unfold State.frameTick
  dsimp only
  refine k.closeCalls (k.foldl hhand (k.foldl htick (k.foldl ?_ (k.foldl (fun _ _ hs => k.settleClip hs _) (k.quiet h (by simp)) _) _) _) _) _
  exact fun u o hu => k.setOut hu _ _

theorem cutCalls (k : Tame P) (h : P s) : P s.cutCalls := k.countN _ _ (k.closeCalls h _)

/-! ## The Timebase (R3 to R17) -/

theorem setTb (k : Tame P) (h : P s) (tb : Timebase) : P { s with tb := tb } := k.quiet h (by simp)

theorem setEcho (k : Tame P) (h : P s) (e : EchoState) : P (s.setEcho e) := k.setTb h _

theorem writeBackup (k : Tame P) (h : P s) : P s.writeBackup := k.quiet h (by simp)

theorem setQuality (k : Tame P) (h : P s) (q : Quality) : P (s.setQuality q) := k.ite h (k.raise (k.setTb h _) _ _ _)

theorem secondBoundary (k : Tame P) (h : P s) (b : Bool) (sec : Nat) : P (s.secondBoundary b sec) := by
  unfold State.secondBoundary inOrder
  split
  · exact k.bellSecond (k.drillReached h _ _) _
  · exact k.drillReached (k.bellSecond h _) _ _

theorem stepEvent (k : Tame P) (h : P s) (b : Bool) (e : StepEvent) : P (s.stepEvent b e) := by
  unfold State.stepEvent inOrder
  refine k.evaluateAll ?_
  split
  · exact k.bellStep (k.drillReached h _ _) _
  · exact k.drillReached (k.bellStep h _) _ _

theorem startEvent (k : Tame P) (h : P s) : P s.startEvent := k.evaluateAll (k.setMark (k.derivePlan h _) _)

theorem localTickEvent (k : Tame P) (h : P s) (b : Bool) : P (s.localTickEvent b) := by
  have htick : P { s.elapse (1000 - s.tb.phase) with tb := (s.elapse (1000 - s.tb.phase)).tb.tick } :=
    k.setTb (k.elapse h _) _
  have hmidnight : ∀ u d, P u → P (u.bellMidnight d) := fun u d hu => k.derivePlan (k.setMark hu _) _
  refine k.ite htick ?_
  unfold State.tickEvents
  dsimp only
  have h1 := k.ite (c := Config.dayMs ≤ s.tb.ms + (tickAdvance (decide ((s.elapse (1000 - s.tb.phase)).tb.tick.slewCount = 0))
    s.tb.slew).1) (hmidnight _ (s.elapse (1000 - s.tb.phase)).tb.tick.day htick) htick
  exact k.ite (k.writeBackup (k.ite (k.stepBoundary (k.ite (k.secondBoundary h1 _ _) h1) _) (k.ite (k.secondBoundary h1 _ _) h1)))
    (k.ite (k.stepBoundary (k.ite (k.secondBoundary h1 _ _) h1) _) (k.ite (k.secondBoundary h1 _ _) h1))

theorem passLag (k : Tame P) (h : P s) (lag : Nat) (b : Bool) : P (s.passLag lag b) := by
  have hticks : ∀ n (u : State), P u → P (u.localTicks b n) := by
    intro n
    induction n with
    | zero => exact fun _ hu => hu
    | succ n ih => exact fun _ hu => ih _ (k.localTickEvent hu b)
  exact k.elapse (hticks _ _ h) _

theorem acceptTime (k : Tame P) (h : P s) (f : TimeFields) (lag : Nat) (b : Bool) : P (s.acceptTime f lag b) := by
  have hset : ∀ tb, P ((({ s.passLag lag b with tb := tb } : State).setQuality .synced).count .timeSteps).writeBackup :=
    fun tb => k.writeBackup (k.count (k.setQuality (k.setTb (k.passLag h lag b) tb) _) _)
  refine k.ite ?_ (k.setQuality (k.setTb h _) _)
  exact k.raise (k.ite (k.startEvent (hset _)) (k.stepEvent (hset _) _ _)) _ _ _

theorem echoRequest (k : Tame P) (h : P s) : P s.echoRequest :=
  k.ite (k.ite (k.setEcho (k.join _ _ (k.setTb h _)) _) (k.join _ _ (k.setTb h _))) h

theorem takeEchoReply (k : Tame P) (h : P s) (tag : Byte) (payload : List Byte) : P (s.takeEchoReply tag payload) := by
  unfold State.takeEchoReply
  split
  · exact k.ite (k.ite (k.setEcho (k.count h _) _) (k.setEcho (k.quiet h (by simp)) _)) (k.count h _)
  · exact k.count h _
  · exact k.count h _

end Tame

end Sys2Proof.Machine

/-! PROOFS. Capacities (R37, Conventions, R98, R106): no step takes a queue, a counter or a FIFO past its capacity, or two
calls onto one channel. -/

namespace Sys2Proof.Machine

namespace Tame

variable {P : State → Prop} {s t : State}

/-! ## The line (R22 to R39) -/

/-- A port is written with queues that have not grown. -/
theorem setPort (k : Tame P) (h : P s) (p : PortId) (v : Port)
    (hq : v.express.length ≤ (s.port p).express.length ∧ v.normal.length ≤ (s.port p).normal.length) : P (s.setPort p v) := by
  obtain ⟨he, hn⟩ := hq
  refine k.shrink h (fun q => ?_) (fun c => by simp [State.counter])
  cases p <;> cases q <;> simp_all [State.queue, State.setPort, State.port]

theorem endReception (k : Tame P) (h : P s) (p : PortId) : P (s.endReception p) := k.setPort h p _ ⟨by rfl, by rfl⟩

theorem beginReception (k : Tame P) (h : P s) (p : PortId) : P (s.beginReception p) := k.ite (k.setPort h p _ ⟨by rfl, by rfl⟩) h

theorem learnAt (k : Tame P) (h : P s) (hd : Hdr) : P (s.learnAt hd) := by
  have hhop : ∀ b, P { s with line := { s.line with hop := b } } := fun b =>
    k.shrink h (fun q => by cases q <;> exact le_rfl) fun _ => le_rfl
  exact k.ite (k.ite h (k.raise (hhop _) _ _ _)) h

theorem signalPresent (k : Tame P) (h : P s) (p : PortId) : P (s.signalPresent p) := k.ite (k.setPort h p _ ⟨by rfl, by rfl⟩) h

theorem debounced (k : Tame P) (h : P s) (p : PortId) : P (s.debounced p) := k.ite (k.setPort h p _ ⟨by rfl, by rfl⟩) h

theorem retrain (k : Tame P) (h : P s) (p : PortId) : P (s.retrain p) := k.ite (k.setPort h p _ ⟨by rfl, by rfl⟩) h

theorem attachLost (k : Tame P) (h : P s) (p : PortId) : P (s.attachLost p) := k.ite (k.setPort h p _ ⟨by rfl, by rfl⟩) h

theorem trained (k : Tame P) (h : P s) (p : PortId) : P (s.trained p) := by
  refine k.ite ?_ h
  unfold State.attached
  split
  · exact k.raise (k.echoRequest (k.setTb (k.setPort h _ _ ⟨by rfl, by rfl⟩) _)) _ _ _
  · exact k.raise (k.setPort h _ _ ⟨by rfl, by rfl⟩) _ _ _

/-- R38: the frame started leaves its queue. -/
theorem nextFrame_shorter {v : Port} {i : QItem} {e n : List QItem} (h : v.nextFrame = some (i, e, n)) :
    e.length ≤ v.express.length ∧ n.length ≤ v.normal.length := by
  unfold Port.nextFrame at h
  split at h <;> simp_all

theorem startTransmission (k : Tame P) (h : P s) (p : PortId) : P (s.startTransmission p) := by
  unfold State.startTransmission
  split
  · next i e n _ _ hnext =>
    obtain ⟨he, hn⟩ := nextFrame_shorter hnext
    exact k.ite (k.ite (k.setEcho (k.setPort h p _ ⟨he, hn⟩) _) (k.setPort h p _ ⟨he, hn⟩)) h
  · exact h

/-! ## The resets (R191, R192) -/

theorem lineReset (k : Tame P) (h : P s) : P s.lineReset := by
  have hvalues : P s.lineResetValues :=
    k.shrink h (fun q => by cases q <;> simp [State.lineResetValues, State.queue, Port.flushed])
      (fun c => by simp [State.lineResetValues, State.counter])
  have hraised := k.raise hvalues .mgmt 1 (enc8 1)
  unfold State.lineReset
  dsimp only
  refine k.foldl (fun _ n hs => k.evaluate hs n) (k.scanNext ?_ _) _
  split
  · exact k.raise (k.ite (k.setQuality hraised _) hraised) _ _ _
  · exact k.ite (k.setQuality hraised _) hraised

theorem askLineReset (k : Tame P) (h : P s) (tag : Byte) : P (s.askLineReset tag) := by
  have hasked : P ({ s with mu := { s.mu with resetPending := true } }.joinOwn (replyFrame tag 11 .ok []) .resetReply
      .repliesLost) := k.joinOwn (k.quiet h (by simp)) _ _ _
  exact k.ite (k.reply h _ _ _ _) (k.ite hasked (k.lineReset hasked))

theorem transmissionEnds (k : Tame P) (h : P s) (p : PortId) : P (s.transmissionEnds p) := by
  unfold State.transmissionEnds
  split
  · exact k.ite (k.ite (k.lineReset (k.setPort h p _ ⟨by rfl, by rfl⟩)) (k.setPort h p _ ⟨by rfl, by rfl⟩)) h
  · exact h

theorem signalLost (k : Tame P) (h : P s) (p : PortId) : P (s.signalLost p) := by
  have hlost : ∀ u l, P u → P (u.portLost l p) := fun u l hu => by
    unfold State.portLost
    split
    · exact k.raise hu _ _ _
    · exact k.ite (k.lineReset (k.setTb (k.cutCalls hu) _)) (k.setTb (k.cutCalls hu) _)
  have hdown := k.count (k.setPort h p { (s.port p).flushed with link := .absent, rx := none } ⟨Nat.zero_le _, Nat.zero_le _⟩)
    (lossCounter p)
  exact k.ite (hlost _ _ (k.countN _ _ (k.ite (k.count hdown _) hdown))) h

theorem hold (k : Tame P) (h : P s) (cause : ResetCause) : P (s.hold cause) :=
  k.shrink h (fun q => by cases q <;> exact Nat.zero_le _) fun _ => le_rfl

theorem release (k : Tame P) (h : P s) (key : Bool) (sweeps : Byte) (supply : Bool) : P (s.release key sweeps supply) := by
  have hvalues : P (s.fullResetValues key sweeps supply) :=
    k.shrink h (fun q => by cases q <;> exact Nat.zero_le _) fun c => by simp [State.fullResetValues, State.counter]
  have hstart := k.raise (k.scanNext hvalues 31) .mgmt 1
  exact k.ite (k.startEvent (k.raise (hstart _) _ _ _)) (hstart _)

/-! ## Events and requests -/

theorem timeoutEnds (k : Tame P) (h : P s) : P s.timeoutEnds :=
  k.ite (k.ite (k.setQuality (k.setTb h _) _) (k.setTb h _)) h

theorem echoPeriodEnds (k : Tame P) (h : P s) : P s.echoPeriodEnds := by
  unfold State.echoPeriodEnds
  split
  · exact k.ite (k.echoRequest (k.setTb h _)) h
  · exact h

theorem echoTimesOut (k : Tame P) (h : P s) : P s.echoTimesOut := by
  unfold State.echoTimesOut
  split
  · exact k.ite (k.setEcho (k.count h _) _) h
  · exact h
  · exact h

theorem takeBellNow (k : Tame P) (h : P s) (payload : List Byte) : P (s.takeBellNow payload) := by
  unfold State.takeBellNow
  dsimp only
  split
  · exact k.count h _
  · exact k.fireBell (k.ite h (k.count h _)) _ _ _ _ _

theorem takeSelect (k : Tame P) (h : P s) (payload : List Byte) : P (s.takeSelect payload) := by
  have hsel : P { s with zm := (selectSteps payload).foldl ZoneMap.applyStep s.zm } := k.quiet h ⟨rfl, rfl⟩
  exact k.ite (k.ite (k.count hsel _) hsel) (k.count h _)

theorem unassignedEnds (k : Tame P) (h : P s) : P s.unassignedEnds := by
  have hagain : ∀ e, P { s with mu := { s.mu with unassignedEnd := e } } := fun _ => k.quiet h (by simp)
  unfold State.unassignedEnds
  split
  · exact k.ite (k.ite (k.raise (hagain _) _ _ _) (hagain _)) h
  · exact h

theorem setAddr (k : Tame P) (h : P s) (hd : Hdr) (addr : Word16) : P (s.setAddr hd addr) := by
  have hset : P ({ s with mu := { s.mu with addr := addr, unassignedEnd := none } }.reply hd.tag 2 .ok (enc16 addr.toNat)) :=
    k.reply (k.quiet h (by simp)) _ _ _ _
  exact k.ite (k.reply h _ _ _ _) (k.ite (k.reply h _ _ _ _) (k.ite (k.reply h _ _ _ _)
    (k.ite hset (k.raise hset _ _ _))))

/-- R179: a clear lowers counters. -/
theorem clearCounters (k : Tame P) (h : P s) (start n : Nat) : P (s.clearCounters start n) := by
  refine k.shrink h (fun q => by cases q <;> simp [State.queue]) fun c => ?_
  simp only [State.counter, State.clearCounters, Fin.getElem_fin, Vector.getElem_ofFn]
  split
  · exact Nat.zero_le _
  · exact le_rfl

theorem activate (k : Tame P) (h : P s) (tag : Byte) : P (s.activate tag) := by
  have hset : P ({ s with bs := { s.bs with pendingSwap := true } }.reply tag 5 .ok []) := k.reply (k.quiet h (by simp)) _ _ _ _
  unfold State.activate
  refine k.ite (k.reply h _ _ _ _) ?_
  split
  · exact k.reply h _ _ _ _
  · exact hset

theorem applyOn (k : Tame P) (h : P s) (o : Output) : P (s.applyOn o) :=
  k.ite h (k.rechooseAll (k.addClaim (k.setOut h _ _) _ _) _)

theorem applyOff (k : Tame P) (h : P s) (o : Output) : P (s.applyOff o) :=
  k.ite h (k.rechooseAll (k.dropClaim (k.setOut h _ _) _ _) _)

theorem applyRelease (k : Tame P) (h : P s) (o : Output) : P (s.applyRelease o) :=
  k.rechooseAll (k.dropClaim (k.setOut h _ _) _ _) _

theorem saveImage (k : Tame P) (h : P s) (tag : Byte) : P (s.saveImage tag) := k.ite (k.reply h _ _ _ _) (k.quiet h (by simp))

theorem saveDone (k : Tame P) (h : P s) : P s.saveDone := by
  have hsaved : ∀ i, P { s with mu := { s.mu with save := none }, image := i } := fun _ => k.quiet h (by simp)
  unfold State.saveDone
  split
  · exact k.reply (hsaved _) _ _ _ _
  · exact h

theorem changeCalendar (k : Tame P) (h : P s) (start : Nat) (rs : List (Option CalendarEntry)) :
    P (s.changeCalendar start rs) := by
  have hset : ∀ v, P { s with bs := { s.bs with calendar := v } } := fun _ => k.quiet h (by simp)
  exact k.ite (hset _) (k.derivePlan (hset _) _)

theorem changeWeek (k : Tame P) (h : P s) (start : Nat) (rs : List (Option Plan)) : P (s.changeWeek start rs) := by
  have hset : ∀ v, P { s with bs := { s.bs with week := v } } := fun _ => k.quiet h (by simp)
  exact k.ite (hset _) (k.derivePlan (hset _) _)

theorem changeAttrs (k : Tame P) (h : P s) (start : Nat) (rs : List (Option ZoneAttr)) : P (s.changeAttrs start rs) := by
  have hset : ∀ v, P { s with zm := { s.zm with attrs := v } } := fun _ => k.quiet h (by simp)
  exact k.ite (k.rechooseAll (hset _) _) (hset _)

/-! ## Every act -/

theorem lineKept (k : Tame P) : LineKept P where
  elapse dt h := k.elapse h dt
  count c h := k.count h c
  draw h := k.draw h
  reply tag req st r h := k.reply h tag req st r
  endReception p h := k.endReception h p
  beginReception p h := k.beginReception h p
  learnAt hd h := k.learnAt h hd
  joinDown q i h := k.ite (k.join q i h) h
  relayUp _ h := k.ite (k.join _ _ h) (k.count h _)
  signalPresent p h := k.signalPresent h p
  debounced p h := k.debounced h p
  retrain p h := k.retrain h p
  trained p h := k.trained h p
  attachLost p h := k.attachLost h p
  signalLost p h := k.signalLost h p
  startTransmission p h := k.startTransmission h p
  transmissionEnds p h := k.transmissionEnds h p

theorem timeKept (k : Tame P) : TimeKept P where
  acceptTime _ lag b h := k.acceptTime h _ _ b
  takeEchoReply tag payload h := k.takeEchoReply h tag payload
  localTickEvent b h := k.localTickEvent h b
  timeoutEnds h := k.timeoutEnds h
  echoPeriodEnds h := k.echoPeriodEnds h
  echoTimesOut h := k.echoTimesOut h
  backupSecond h := k.quiet h (by simp)

theorem soundKept (k : Tame P) : SoundKept P where
  takeAudio payload h := k.takeAudio h payload
  takeOpen payload h := k.takeOpen h payload
  takeClose payload h := k.takeClose h payload
  chimeEnds r h := k.chimeEnds h r
  chimePhaseEnd r h := k.chimePhaseEnd h r
  frameClock h := k.frameClock h
  silenceEnds r h := k.silenceEnds h r
  takeBellNow payload h := k.takeBellNow h payload
  takeSelect payload h := k.takeSelect h payload
  bellEnds _ h := k.rechooseAll (k.dropClaim h _ _) _
  outputPhaseEnd o h := k.outputPhaseEnd h o

theorem plantKept (k : Tame P) : PlantKept P where
  checkPulse n p reading h := k.checkPulse h n p reading
  endPulse n pol b h := k.endPulse h n pol b
  evaluate n h := k.evaluate h n
  dwellEnds reading h := k.dwellEnds h reading
  checkFire reading h := k.checkFire h reading
  takeStart id program day ms h := k.takeStart h id program day ms
  takeAbort id h := k.takeAbort h id
  takeAllClear id h := k.takeAllClear h id
  evacuateNow d h := k.rechooseAll (k.enterEvacuate h d) _
  holdNow d h := k.rechooseAll (k.enterHold h d) _
  allClearNow d b h := k.rechooseAll (k.enterAllClear h d b) _
  endDrillNow d o h := k.rechooseAll (k.endDrill h d o) _
  progressDue h := k.progressDue h
  setHoldKey _ h := k.quiet h (by simp)
  setSweeps _ h := k.quiet h (by simp)
  takeSweep i h := k.takeSweep h i

theorem requestKept (k : Tame P) : RequestKept P where
  unassignedEnds h := k.unassignedEnds h
  setAddr hd addr h := k.setAddr h hd addr
  clearCounters start n h := k.clearCounters h start n
  activate tag h := k.activate h tag
  resyncClock tag line position polarity h := k.resyncClock h tag line position polarity
  recover tag circuit h := k.recover h tag circuit
  applyOn o h := k.applyOn h o
  applyOff o h := k.applyOff h o
  applyRelease o h := k.applyRelease h o
  saveImage tag h := k.saveImage h tag
  saveDone h := k.saveDone h
  askLineReset tag h := k.askLineReset h tag

theorem writeKept (k : Tame P) : WriteKept P where
  changeSched _ _ _ h := k.quiet h (by simp)
  changeCalendar start rs h := k.changeCalendar h start rs
  changeWeek start rs h := k.changeWeek h start rs
  changeWindows _ _ h := k.quiet h (by simp)
  changeAttrs start rs h := k.changeAttrs h start rs
  changeTones _ _ h := k.quiet h (by simp)
  changeClocks start rs h := k.changeClocks h start rs
  changeSups start rs h := k.changeSups h start rs
  changeDrills _ _ h := k.quiet h (by simp)
  changeNode _ _ _ h := k.quiet h (by simp)
  hold cause h := k.hold h cause
  release key sweeps supply h := k.release h key sweeps supply
  backupLost h := k.quiet h (by simp)

theorem kept (k : Tame P) : Kept P := ⟨k.lineKept, k.timeKept, k.soundKept, k.plantKept, k.requestKept, k.writeKept⟩

end Tame

/-- R37: the capacities of the queues are kept by counts and joins. -/
theorem tame_queuesBounded : Tame State.queuesBounded where
  shrink h hq _ q := (hq q).trans (h q)
  countN c n h q := by rw [queue_countN]; exact h q
  join q i h := join_bounded _ q i h

/-- Conventions: the range of the counters is kept by counts and joins. -/
theorem tame_countersBounded : Tame State.countersBounded where
  shrink h _ hc c := (hc c).trans (h c)
  countN c n h := countN_bounded _ c n h
  join {s} q i h := by
    obtain ⟨-, he⟩ | ⟨-, he⟩ := join_cases s q i
    · rw [he]
      cases q <;> exact h
    · rw [he]
      exact countN_bounded _ _ _ h

end Sys2Proof.Machine

/-! PROOFS. The page calls (R98, R106): every step keeps the FIFOs within eight frames and the channels apart. -/

namespace Sys2Proof.Machine

/-! ## The calls after each act on them -/

/-- R113: a release frees its record and leaves the others. -/
theorem call_releaseCall (s : State) (r k : Fin 8) : (s.releaseCall r).call k = if k = r then none else s.call k := by
  have hcall : ∀ t : State, t.pe = s.pe → t.call k = s.call k := fun t ht => by simp [State.call, ht]
  split
  · next h => simp [h, State.releaseCall]
  · next h =>
    rw [State.releaseCall, State.call_setCall_ne _ _ h]
    exact hcall _ (by simp)

theorem call_foldl_releaseCall (rs : List (Fin 8)) (s : State) (k : Fin 8) :
    (rs.foldl State.releaseCall s).call k = if k ∈ rs then none else s.call k := by
  induction rs generalizing s with
  | nil => simp
  | cons r rs ih =>
    rw [List.foldl_cons, ih, call_releaseCall]
    by_cases h : k ∈ rs <;> by_cases hr : k = r <;> simp [h, hr]

/-- R113: the calls closed are gone, and the others stay. -/
@[simp] theorem call_closeCalls (s : State) (rs : List (Fin 8)) (k : Fin 8) :
    (s.closeCalls rs).call k = if k ∈ rs then none else s.call k := by
  rw [← call_foldl_releaseCall]
  simp [State.closeCalls, State.call]

@[simp] theorem call_countN (s : State) (c : Counter) (n : Nat) (r : Fin 8) : (s.countN c n).call r = s.call r := by
  simp [State.call]

theorem call_setCall (s : State) (r : Fin 8) (c : Option Call) (k : Fin 8) :
    (s.setCall r c).call k = if k = r then c else s.call k := by
  split
  · next h => rw [h, State.call_setCall_self]
  · next h => rw [State.call_setCall_ne _ _ h]

/-- R101: the call that an open creates now. -/
def State.newCall (s : State) (f : OpenFields) (zones : List Output) : Call :=
  let chime : Option TonePattern :=
    if f.chime = 0xFF then none else some (s.za.tones.toList.getD f.chime.toNat .factory)
  { channel := f.channel, priority := f.priority, zones := zones, chime := chime, gain := f.gain,
    state := if chime.isSome then .chime else .prefill, expected := none, fifo := [], inPlay := none, underruns := 0,
    silenceEnd := if chime.isSome then none else some (s.now + Config.silenceUs), order := s.pe.openOrder,
    chimeEnd := chime.map (fun p => s.now + passUs p), chimePos := chime.map (fun _ => ⟨0, true, s.now⟩) }

/-- The counter of opens has moved on (R101). -/
def State.opened (s : State) : State := { s with pe := { s.pe with openOrder := s.pe.openOrder + 1 } }

theorem createCall_eq (s : State) (r : Fin 8) (f : OpenFields) (zones : List Output) :
    s.createCall r f zones =
      rechooseAll zones (((s.setCall r (some (s.newCall f zones))).opened).pageClaims r f.priority zones) := rfl

/-- R101: a creation writes its record and no other. -/
theorem call_createCall (s : State) (r : Fin 8) (f : OpenFields) (zones : List Output) (k : Fin 8) :
    (s.createCall r f zones).call k = if k = r then some (s.newCall f zones) else s.call k := by
  rw [← call_setCall, createCall_eq]
  simp [State.call, State.opened]

/-- R100: a call as a reopen leaves it. -/
def Call.reopened (c : Call) (now : Nat) (f : OpenFields) (zones : List Output) : Call :=
  { c with priority := f.priority, zones := zones, gain := f.gain, state := reopenedState c,
           silenceEnd := if c.state = .chime then none else some (now + Config.silenceUs) }

/-- R100: a reopen writes its record and no other. -/
theorem call_reopenCall (s : State) (r : Fin 8) (c : Call) (f : OpenFields) (zones : List Output) (k : Fin 8) :
    (s.reopenCall r c f zones).call k = if k = r then some (c.reopened s.now f zones) else s.call k := by
  rw [← call_setCall]
  simp [State.reopenCall, State.call, Call.reopened]

/-- R98: no call holds the channel of which callOn finds none. -/
theorem callOn_eq_none {s : State} {channel : Nat} :
    s.callOn channel = none ↔ ∀ r c, s.call r = some c → c.channel ≠ channel := by
  simp only [State.callOn, List.find?_eq_none, allRecords, List.mem_finRange, true_implies]
  refine forall_congr' fun r => ?_
  cases s.call r <;> simp

theorem channel_of_callOn {s : State} {channel : Nat} {r : Fin 8} {c : Call} (h : s.callOn channel = some r)
    (hc : s.call r = some c) : c.channel = channel := by
  have := List.find?_some h
  simpa [hc] using this

/-! ## The FIFO of a call (R105, R106) -/

/-- R106: an enqueue leaves the channel, and the FIFO within its eight frames. -/
theorem enqueue_legal {c : Call} (h : c.fifo.length ≤ 8) (f : AudioFrame) :
    (c.enqueue f).1.channel = c.channel ∧ (c.enqueue f).1.fifo.length ≤ 8 := by
  unfold Call.enqueue
  dsimp only
  split <;> (split <;> simp_all <;> omega)

theorem enqueueAll_legal {c : Call} (h : c.fifo.length ≤ 8) (fs : List AudioFrame) :
    (c.enqueueAll fs).1.channel = c.channel ∧ (c.enqueueAll fs).1.fifo.length ≤ 8 := by
  induction fs generalizing c with
  | nil => exact ⟨rfl, h⟩
  | cons f fs ih =>
    obtain ⟨hchannel, hfifo⟩ := enqueue_legal h f
    obtain ⟨hc, hf⟩ := ih hfifo
    exact ⟨hc.trans hchannel, hf⟩

/-- R107: a tick of the frame clock takes a frame from the FIFO or leaves it. -/
theorem tick_legal (c : Call) (now : Nat) :
    (c.tick now).1.channel = c.channel ∧ (c.tick now).1.fifo.length ≤ c.fifo.length := by
  unfold Call.tick
  cases hs : c.state <;> cases hf : c.fifo <;> simp only [hf]
  all_goals (try split) <;> simp_all

namespace State.callsLegal

variable {s t : State}

theorem of_calls (h : s.callsLegal) (hc : ∀ r, t.call r = s.call r) : t.callsLegal :=
  ⟨fun r c hr => h.1 r c (hc r ▸ hr), fun r k c d hr hk => h.2 r k c d (hc r ▸ hr) (hc k ▸ hk)⟩

theorem of_pe (h : s.callsLegal) (hpe : t.pe = s.pe) : t.callsLegal := h.of_calls fun r => by simp [State.call, hpe]

/-- Calls that go leave the others legal. -/
theorem of_fewer (h : s.callsLegal) (hc : ∀ r, t.call r = none ∨ t.call r = s.call r) : t.callsLegal := by
  have hsome : ∀ r c, t.call r = some c → s.call r = some c := fun r c hr => by
    obtain hn | he := hc r
    · rw [hn] at hr; cases hr
    · rw [← he]; exact hr
  exact ⟨fun r c hr => h.1 r c (hsome r c hr), fun r k c d hr hk => h.2 r k c d (hsome r c hr) (hsome k d hk)⟩

theorem of_none (hc : ∀ r, t.call r = none) : t.callsLegal :=
  ⟨fun r c hr => by simp [hc] at hr, fun r k c d hr => by simp [hc] at hr⟩

/-- A call is written in a record, on a channel that no other record's call holds. -/
theorem of_write (h : s.callsLegal) {r : Fin 8} {c : Call} (hcalls : ∀ k, t.call k = if k = r then some c else s.call k)
    (hfifo : c.fifo.length ≤ 8) (hchannel : ∀ k d, k ≠ r → s.call k = some d → d.channel ≠ c.channel) :
    t.callsLegal := by
  have hread : ∀ k d, t.call k = some d → (k = r ∧ d = c) ∨ (k ≠ r ∧ s.call k = some d) := by
    intro k d hk
    rw [hcalls] at hk
    split at hk
    · next hkr => exact .inl ⟨hkr, (Option.some.inj hk).symm⟩
    · next hkr => exact .inr ⟨hkr, hk⟩
  refine ⟨fun k d hk => ?_, fun k m d e hk hm hde => ?_⟩
  · obtain ⟨-, rfl⟩ | ⟨-, hold⟩ := hread k d hk
    · exact hfifo
    · exact h.1 k d hold
  · obtain ⟨rfl, rfl⟩ | ⟨hkr, hkold⟩ := hread k d hk <;> obtain ⟨rfl, rfl⟩ | ⟨hmr, hmold⟩ := hread m e hm
    · rfl
    · exact absurd hde.symm (hchannel m e hmr hmold)
    · exact absurd hde (hchannel k d hkr hkold)
    · exact h.2 k m d e hkold hmold hde

/-- A call is written in place of one of its channel. -/
theorem of_update (h : s.callsLegal) {r : Fin 8} {c c' : Call} (hr : s.call r = some c)
    (hcalls : ∀ k, t.call k = if k = r then some c' else s.call k) (hfifo : c'.fifo.length ≤ 8)
    (hchannel : c'.channel = c.channel) : t.callsLegal :=
  h.of_write hcalls hfifo fun k d hk hd he => hk (h.2 k r d c hd hr (he.trans hchannel))

theorem update (h : s.callsLegal) {r : Fin 8} {c c' : Call} (hr : s.call r = some c) (hfifo : c'.fifo.length ≤ 8)
    (hchannel : c'.channel = c.channel) : (s.setCall r (some c')).callsLegal :=
  h.of_update hr (call_setCall s r _) hfifo hchannel

theorem closeCalls (h : s.callsLegal) (rs : List (Fin 8)) : (s.closeCalls rs).callsLegal :=
  h.of_fewer fun r => by simp only [call_closeCalls]; split <;> simp

theorem raise (h : s.callsLegal) (c : NoticeClass) (k : Nat) (a : List Byte) : (s.raise c k a).callsLegal := h.of_pe (by simp)

theorem countN (h : s.callsLegal) (c : Counter) (k : Nat) : (s.countN c k).callsLegal := h.of_pe (by simp)

theorem count (h : s.callsLegal) (c : Counter) : (s.count c).callsLegal := h.of_pe (by simp)

/-! ## Opening and closing (R99 to R113) -/

/-- R101: a call is created on a channel that no other record's call holds. -/
theorem createCall (h : s.callsLegal) {r : Fin 8} {f : OpenFields}
    (hchannel : ∀ k d, k ≠ r → s.call k = some d → d.channel ≠ f.channel) (zones : List Output) :
    (s.createCall r f zones).callsLegal :=
  h.of_write (call_createCall s r f zones) (Nat.zero_le _) hchannel

theorem reopenCall (h : s.callsLegal) {r : Fin 8} {c : Call} (hr : s.call r = some c) (f : OpenFields)
    (zones : List Output) : (s.reopenCall r c f zones).callsLegal :=
  h.of_update hr (call_reopenCall s r c f zones) (h.1 r c hr) rfl

theorem evictFor (h : s.callsLegal) {f : OpenFields} (hf : s.callOn f.channel = none) (zones : List Output) :
    (s.evictFor f zones).callsLegal := by
  unfold State.evictFor
  split
  · next r c _ =>
    split
    · refine (((h.closeCalls [r]).count .evicted).raise .page 1 _).createCall (fun k d _ hk => ?_) zones
      have hk' : (s.closeCalls [r]).call k = some d := by simpa [State.call] using hk
      rw [call_closeCalls] at hk'
      split at hk'
      · cases hk'
      · exact callOn_eq_none.mp hf k d hk'
    · exact (h.count _).raise _ _ _
  · exact h

theorem takeOpen (h : s.callsLegal) (payload : List Byte) : (s.takeOpen payload).callsLegal := by
  unfold State.takeOpen
  split
  · exact h.count _
  · next f _ =>
    dsimp only
    generalize hu : s.countResolution f.target (s.zm.resolvePage f.target) = u
    have hul : u.callsLegal := hu ▸ h.of_pe (by simp)
    split
    · exact hul.count _
    · split
      · split
        · next hc => exact hul.reopenCall hc _ _
        · exact hul
      · next hf =>
        split
        · exact hul.createCall (fun k d _ hk => callOn_eq_none.mp hf k d hk) _
        · exact hul.evictFor hf _

theorem takeClose (h : s.callsLegal) (payload : List Byte) : (s.takeClose payload).callsLegal := by
  unfold State.takeClose
  split
  · split
    · exact h
    · split
      · exact h
      · next r _ _ c hc =>
        split
        · exact h.closeCalls _
        · exact h
        · split
          · exact h.closeCalls _
          · exact h.update hc (h.1 r c hc) rfl
        · split
          · exact h.closeCalls _
          · exact h.update hc (h.1 r c hc) rfl
  · exact h.count _

/-! ## Audio and playout (R104 to R112) -/

theorem enqueueFrames (h : s.callsLegal) {r : Fin 8} {c c' : Call} (hr : s.call r = some c)
    (hfifo : c'.fifo.length ≤ 8) (hchannel : c'.channel = c.channel) (n : Byte) (fs : List AudioFrame) :
    (s.enqueueFrames r c' n fs).callsLegal := by
  unfold State.enqueueFrames
  dsimp only
  have hlegal := enqueueAll_legal (c := { c' with expected := some (n + 1) }) hfifo fs
  generalize Call.enqueueAll { c' with expected := some (n + 1) } fs = e at hlegal ⊢
  exact (h.update hr hlegal.2 (hlegal.1.trans hchannel)).countN _ _

theorem takeSequence (h : s.callsLegal) {r : Fin 8} {c c' : Call} (hr : s.call r = some c)
    (hfifo : c'.fifo.length ≤ 8) (hchannel : c'.channel = c.channel) (n : Byte) (f : AudioFrame) :
    (s.takeSequence r c' n f).callsLegal := by
  unfold State.takeSequence
  split
  · exact h.enqueueFrames hr hfifo hchannel _ _
  · dsimp only
    split
    · exact (h.countN .concealed _).enqueueFrames ((call_countN _ _ _ _).trans hr) hfifo hchannel _ _
    · split
      · exact (h.count .resync).enqueueFrames (c' := { c' with fifo := [], state := .prefill, underruns := 0 })
          ((call_countN _ _ _ _).trans hr) (Nat.zero_le 8) hchannel _ _
      · exact (h.update hr hfifo hchannel).count _

theorem takeAudio (h : s.callsLegal) (payload : List Byte) : (s.takeAudio payload).callsLegal := by
  unfold State.takeAudio
  split
  · split
    · exact h
    · split
      · exact h
      · next r _ _ c hc =>
        dsimp only
        split
        · exact h.count _
        · exact h.count _
        · exact h.takeSequence (c' := { c with silenceEnd := some (s.now + Config.silenceUs) }) hc (h.1 r c hc) rfl _ _
        · exact h.takeSequence (c' := { c with silenceEnd := some (s.now + Config.silenceUs) }) hc (h.1 r c hc) rfl _ _
  · exact h.count _

theorem chimeEnds (h : s.callsLegal) (r : Fin 8) : (s.chimeEnds r).callsLegal := by
  unfold State.chimeEnds
  split
  · next c hc =>
    split
    · exact h.update hc (Nat.zero_le _) rfl
    · exact h
  · exact h

theorem chimePhaseEnd (h : s.callsLegal) (r : Fin 8) : (s.chimePhaseEnd r).callsLegal := by
  unfold State.chimePhaseEnd
  split
  · next c hc =>
    have hset : ∀ x, (s.setCall r (some { c with chimePos := x })).callsLegal := fun x => h.update hc (h.1 r c hc) rfl
    split
    · next p pos _ _ _ =>
      split
      · dsimp only
        split
        · exact (hset (nextPos p false pos s.now)).of_pe (by simp)
        · exact hset _
      · exact h
    · exact h
  · exact h

theorem silenceEnds (h : s.callsLegal) (r : Fin 8) : (s.silenceEnds r).callsLegal := by
  unfold State.silenceEnds
  split
  · split
    · exact ((h.closeCalls _).count _).raise _ _ _
    · exact h
  · exact h

theorem tickCall (h : s.callsLegal) (r : Fin 8) : (s.tickCall r).callsLegal := by
  unfold State.tickCall
  split
  · next c hc =>
    obtain ⟨hchannel, hfifo⟩ := tick_legal c s.now
    have hset := h.update hc (hfifo.trans (h.1 r c hc)) hchannel
    dsimp only
    split
    · exact hset.count _
    · exact hset
  · exact h

theorem frameTick (h : s.callsLegal) : s.frameTick.callsLegal := by
  have hticks : ∀ (l : List (Fin 8)) (u : State), u.callsLegal → (l.foldl State.tickCall u).callsLegal := by
    intro l
    induction l with
    | nil => exact fun _ hu => hu
    | cons r l ih => exact fun _ hu => ih _ (hu.tickCall r)
  have hstart : (allOutputs.foldl State.clearClipped (allOutputs.foldl State.settleClip s)).callsLegal := h.of_pe (by simp)
  have hplayed := hticks allRecords _ hstart
  have hhanded : (allOutputs.foldl State.handFrame (allRecords.foldl State.tickCall
      (allOutputs.foldl State.clearClipped (allOutputs.foldl State.settleClip s)))).callsLegal := hplayed.of_pe (by simp)
  exact hhanded.closeCalls _

theorem frameClock (h : s.callsLegal) : s.frameClock.callsLegal := by
  have hnext : ({ s with pe := { s.pe with nextTick := s.pe.nextTick + Config.frameClockUs } } : State).callsLegal :=
    h.of_calls fun _ => rfl
  unfold State.frameClock
  split
  · exact hnext.frameTick
  · exact h

/-! ## The loss of a link and the resets -/

@[simp] theorem call_lineReset (s : State) (r : Fin 8) : s.lineReset.call r = none := by
  have hfold : ∀ t : State, (allLines.foldl State.evaluate t).pe = t.pe := foldl_part (fun s => s.pe) (by simp) _
  have hpe : s.lineReset.pe = s.lineResetValues.pe := by
    unfold State.lineReset
    dsimp only
    rw [hfold]
    (repeat' split) <;> simp
  simp [State.call, hpe, State.lineResetValues]

@[simp] theorem call_hold (s : State) (cause : ResetCause) (r : Fin 8) : (s.hold cause).call r = none := by
  show (Vector.replicate 8 (none : Option Call))[r] = none
  simp

@[simp] theorem call_release (s : State) (key : Bool) (sweeps : Byte) (supply : Bool) (r : Fin 8) :
    (s.release key sweeps supply).call r = none := by
  have hpe : (s.release key sweeps supply).pe = (s.fullResetValues key sweeps supply).pe := by
    unfold State.release State.startBackup
    dsimp only
    split <;> simp
  simp [State.call, hpe, State.fullResetValues]

theorem askLineReset (h : s.callsLegal) (tag : Byte) : (s.askLineReset tag).callsLegal := by
  unfold State.askLineReset
  split
  · exact h.of_pe (by simp)
  · dsimp only
    split
    · exact h.of_pe (by simp)
    · exact of_none (call_lineReset _)

theorem transmissionEnds (h : s.callsLegal) (p : PortId) : (s.transmissionEnds p).callsLegal := by
  unfold State.transmissionEnds
  split
  · split
    · dsimp only
      split
      · exact of_none (call_lineReset _)
      · exact h.of_pe (by simp)
    · exact h
  · exact h

theorem cutCalls (h : s.callsLegal) : s.cutCalls.callsLegal := (h.closeCalls _).countN _ _

theorem portLost (h : s.callsLegal) (flushed : List QItem) (p : PortId) : (s.portLost flushed p).callsLegal := by
  unfold State.portLost
  split
  · exact h.of_pe (by simp)
  · dsimp only
    split
    · exact of_none (call_lineReset _)
    · exact h.cutCalls.of_calls fun _ => rfl

theorem signalLost (h : s.callsLegal) (p : PortId) : (s.signalLost p).callsLegal := by
  unfold State.signalLost
  dsimp only
  split
  · refine portLost ?_ _ _
    split <;> exact h.of_pe (by simp)
  · exact h

/-! ## Every act -/

theorem lineKept : LineKept State.callsLegal where
  elapse _ h := h.of_pe (by simp)
  count _ h := h.of_pe (by simp)
  draw h := h.of_pe (by simp)
  reply _ _ _ _ h := h.of_pe (by simp)
  endReception _ h := h.of_pe (by simp)
  beginReception _ h := h.of_pe (by simp)
  learnAt _ h := h.of_pe (by simp)
  joinDown _ _ h := h.of_pe (by simp)
  relayUp _ h := h.of_pe (by simp)
  signalPresent _ h := h.of_pe (by simp)
  debounced _ h := h.of_pe (by simp)
  retrain _ h := h.of_pe (by simp)
  trained _ h := h.of_pe (by simp)
  attachLost _ h := h.of_pe (by simp)
  signalLost p h := h.signalLost p
  startTransmission _ h := h.of_pe (by simp)
  transmissionEnds p h := h.transmissionEnds p

theorem timeKept : TimeKept State.callsLegal where
  acceptTime _ _ _ h := h.of_pe (by simp)
  takeEchoReply _ _ h := h.of_pe (by simp)
  localTickEvent _ h := h.of_pe (by simp)
  timeoutEnds h := h.of_pe (by simp)
  echoPeriodEnds h := h.of_pe (by simp)
  echoTimesOut h := h.of_pe (by simp)
  backupSecond h := h.of_pe (by simp)

theorem soundKept : SoundKept State.callsLegal where
  takeAudio payload h := h.takeAudio payload
  takeOpen payload h := h.takeOpen payload
  takeClose payload h := h.takeClose payload
  chimeEnds r h := h.chimeEnds r
  chimePhaseEnd r h := h.chimePhaseEnd r
  frameClock  h := h.frameClock
  silenceEnds r h := h.silenceEnds r
  takeBellNow _ h := h.of_pe (by simp)
  takeSelect _ h := h.of_pe (by simp)
  bellEnds _ h := h.of_pe (by simp)
  outputPhaseEnd _ h := h.of_pe (by simp)

theorem plantKept : PlantKept State.callsLegal where
  checkPulse _ _ _ h := h.of_pe (by simp)
  endPulse _ _ _ h := h.of_pe (by simp)
  evaluate _ h := h.of_pe (by simp)
  dwellEnds _ h := h.of_pe (by simp)
  checkFire _ h := h.of_pe (by simp)
  takeStart _ _ _ _ h := h.of_pe (by simp)
  takeAbort _ h := h.of_pe (by simp)
  takeAllClear _ h := h.of_pe (by simp)
  evacuateNow _ h := h.of_pe (by simp)
  holdNow _ h := h.of_pe (by simp)
  allClearNow _ _ h := h.of_pe (by simp)
  endDrillNow _ _ h := h.of_pe (by simp)
  progressDue h := h.of_pe (by simp)
  setHoldKey _ h := h.of_pe (by simp)
  setSweeps _ h := h.of_pe (by simp)
  takeSweep _ h := h.of_pe (by simp)

theorem requestKept : RequestKept State.callsLegal where
  unassignedEnds h := h.of_pe (by simp)
  setAddr _ _ h := h.of_pe (by simp)
  clearCounters _ _ h := h.of_pe (by simp)
  activate _ h := h.of_pe (by simp)
  resyncClock _ _ _ _ h := h.of_pe (by simp)
  recover _ _ h := h.of_pe (by simp)
  applyOn _ h := h.of_pe (by simp)
  applyOff _ h := h.of_pe (by simp)
  applyRelease _ h := h.of_pe (by simp)
  saveImage _ h := h.of_pe (by simp)
  saveDone h := h.of_pe (by simp)
  askLineReset tag h := h.askLineReset tag

theorem writeKept : WriteKept State.callsLegal where
  changeSched _ _ _ h := h.of_pe (by simp)
  changeCalendar _ _ h := h.of_pe (by simp)
  changeWeek _ _ h := h.of_pe (by simp)
  changeWindows _ _ h := h.of_pe (by simp)
  changeAttrs _ _ h := h.of_pe (by simp)
  changeTones _ _ h := h.of_pe (by simp)
  changeClocks _ _ h := h.of_pe (by simp)
  changeSups _ _ h := h.of_pe (by simp)
  changeDrills _ _ h := h.of_pe (by simp)
  changeNode _ _ _ h := h.of_pe (by simp)
  hold cause _ := of_none fun r => by simp
  release key sweeps supply _ := of_none fun r => by simp
  backupLost h := h.of_pe (by simp)

theorem kept : Kept State.callsLegal := ⟨lineKept, timeKept, soundKept, plantKept, requestKept, writeKept⟩

end State.callsLegal

/-- Settles O58: queues and counters change by counts, joins and removals alone, and the Page Engine's acts write a call
where its channel is free or in place of one of its channel. -/
theorem capacitiesKept : Obligations.CapacitiesKept := fun _ _ hstep =>
  ⟨fun h => tame_queuesBounded.kept.step (fun _ _ h => h) h hstep,
    fun h => tame_countersBounded.kept.step (fun _ _ h => h) h hstep,
    fun h => State.callsLegal.kept.step (fun _ _ h => h) h hstep⟩

/-- Settles O60: the reset state holds no frame but its START, no count, no call and no claim. -/
theorem resetMeetsInvariants : Obligations.ResetMeetsInvariants := by
  have hsettled : State.reset.SettledOff [] := .of_reset fun o => by simp [State.reset, State.out]
  refine ⟨(timeLegal_iff _).mpr ⟨⟨?_, ?_, ?_, fun _ => ⟨rfl, rfl⟩, by simp [State.reset, Timebase.reset]⟩, ?_, ?_⟩, fun q => ?_,
    fun c => by simp [State.reset, State.counter], .of_none fun r => by simp [State.reset, State.call],
    hsettled.distinct, fun o => hsettled.chosen o (by simp), hsettled.silent⟩
  · decide
  · decide
  · decide
  · decide
  · decide
  · cases q <;> decide

end Sys2Proof.Machine

/-! PROOFS. Bytes, CRC and selectors (R26, R28, R29, R194), and the fields written at the start of a transmission (R18, R31,
R36). -/

namespace Sys2Proof.Machine

/-! ## Fields in bytes (Chapter 11) -/

theorem byteAt_append_right (l m : List Byte) (i : Nat) : byteAt (l ++ m) (l.length + i) = byteAt m i := by
  simp [byteAt, List.getElem?_append_right]

theorem word16At_append_right (l m : List Byte) (i : Nat) : word16At (l ++ m) (l.length + i) = word16At m i := by
  rw [word16At, Nat.add_assoc, byteAt_append_right, byteAt_append_right, word16At]

/-- Chapter 11: a 2-byte field reads as it was written. -/
@[simp] theorem word16At_enc16 (n : Word16) (l : List Byte) : word16At (enc16 n.toNat ++ l) 0 = n := by
  apply BitVec.eq_of_toNat_eq
  simp only [word16At, byteAt, enc16, BitVec.toNat_append, List.cons_append, List.getD_cons_zero, List.getD_cons_succ,
    BitVec.toNat_ofNat, List.nil_append]
  have hlt := n.isLt
  rw [← Nat.shiftLeft_add_eq_or_of_lt (Nat.mod_lt _ (by decide)), Nat.shiftLeft_eq]
  omega

/-- Chapter 11: a 4-byte field reads as it was written. -/
@[simp] theorem word32At_enc32 (n : Word32) (l : List Byte) : word32At (enc32 n.toNat ++ l) 0 = n := by
  apply BitVec.eq_of_toNat_eq
  simp only [word32At, word16At, byteAt, enc32, BitVec.toNat_append, List.cons_append, List.getD_cons_zero,
    List.getD_cons_succ, BitVec.toNat_ofNat, List.nil_append]
  have hlt := n.isLt
  rw [← Nat.shiftLeft_add_eq_or_of_lt (Nat.mod_lt _ (by decide)), ← Nat.shiftLeft_add_eq_or_of_lt (Nat.mod_lt _ (by decide)),
    ← Nat.shiftLeft_add_eq_or_of_lt (by omega)]
  simp only [Nat.shiftLeft_eq]
  omega

/-! ## The CRC (R194) -/

/-- While no bit reaches the top of the register, its shifts are plain shifts. -/
theorem crcShift_foldl {x : Word16} (hx : x.toNat < 256) {n : Nat} (hn : n ≤ 8) :
    (List.range n).foldl (fun r _ => crcShift r) x = x <<< n := by
  induction n with
  | zero => simp
  | succ n ih =>
    have hpow : 2 ^ n ≤ 128 := Nat.pow_le_pow_right (by decide) (by omega : n ≤ 7)
    have hlt : x.toNat * 2 ^ n < 32768 := by nlinarith
    have hmsb : (x <<< n).msb = false := by
      rw [BitVec.msb_eq_false_iff_two_mul_lt, BitVec.toNat_shiftLeft, Nat.shiftLeft_eq, Nat.mod_eq_of_lt (by omega)]
      omega
    rw [List.range_succ, List.foldl_append, ih (by omega), List.foldl_cons, List.foldl_nil, crcShift, hmsb, if_neg (by simp),
      BitVec.shiftLeft_add]

/-- R194: the register taken in after its own high byte holds its low byte above. -/
theorem crcByte_high (r : Word16) : crcByte r (BitVec.ofNat 8 (r.toNat / 256)) = BitVec.ofNat 8 r.toNat ++ 0#8 := by
  have hr := r.isLt
  have hlow : (r ^^^ (BitVec.ofNat 8 (r.toNat / 256) ++ 0#8)).toNat = r.toNat % 2 ^ 8 := by
    apply Nat.eq_of_testBit_eq
    intro i
    rw [BitVec.toNat_xor, BitVec.toNat_append, Nat.testBit_xor, Nat.testBit_or, Nat.testBit_shiftLeft, BitVec.toNat_ofNat,
      BitVec.toNat_ofNat, show 256 = 2 ^ 8 from rfl, Nat.testBit_mod_two_pow, Nat.testBit_mod_two_pow, Nat.testBit_mod_two_pow,
      Nat.testBit_div_two_pow]
    by_cases h : i < 8
    · simp [h, Nat.not_le.mpr h]
    · by_cases h16 : i < 16
      · simp [h, Nat.sub_add_cancel (Nat.not_lt.mp h), show 8 ≤ i by omega, show i - 8 < 8 by omega]
      · have : r.toNat.testBit i = false :=
          Nat.testBit_lt_two_pow (hr.trans_le (Nat.pow_le_pow_right (by decide) (Nat.not_lt.mp h16)))
        simp [h, this, show ¬ i - 8 < 8 by omega]
  have hlt : (r ^^^ (BitVec.ofNat 8 (r.toNat / 256) ++ 0#8)).toNat < 256 := by omega
  change (List.range 8).foldl (fun r _ => crcShift r) (r ^^^ (BitVec.ofNat 8 (r.toNat / 256) ++ 0#8)) = _
  rw [crcShift_foldl hlt le_rfl]
  apply BitVec.eq_of_toNat_eq
  rw [BitVec.toNat_shiftLeft, hlow, BitVec.toNat_append, BitVec.toNat_ofNat, BitVec.toNat_ofNat, Nat.zero_mod, Nat.or_zero,
    Nat.shiftLeft_eq]
  omega

/-- R194: a register goes to 0 over its own two bytes. -/
theorem crc_residue (l : List Byte) : crc (l ++ enc16 (crc l).toNat) = 0 := by
  have hstep : crc (l ++ enc16 (crc l).toNat) =
      crcByte (crcByte (crc l) (BitVec.ofNat 8 ((crc l).toNat / 256))) (BitVec.ofNat 8 (crc l).toNat) := by
    simp [crc, enc16, List.foldl_append]
  rw [hstep, crcByte_high, crcByte]
  change (List.range 8).foldl (fun r _ => crcShift r) (_ ^^^ _) = _
  erw [BitVec.xor_self]
  rfl

/-- R26: the header of a frame gives its length in its eighth byte. -/
theorem checkFailure_sent (f : Frame) (h : f.payload.length ≤ 240) :
    checkFailure (f.bytes ++ enc16 (crc f.bytes).toNat) = none := by
  have hlen : f.bytes.length = 8 + f.payload.length := by simp [Frame.bytes, enc16, enc8]; omega
  have hbyte : (byteAt (f.bytes ++ enc16 (crc f.bytes).toNat) 7).toNat = f.payload.length := by
    simp [byteAt, Frame.bytes, enc16, enc8]
    omega
  have hfield : word16At (f.bytes ++ enc16 (crc f.bytes).toNat) (8 + f.payload.length) = crc f.bytes := by
    have := word16At_append_right f.bytes (enc16 (crc f.bytes).toNat) 0
    rw [Nat.add_zero, hlen] at this
    rw [this]
    simpa using word16At_enc16 (crc f.bytes) []
  have htake : (f.bytes ++ enc16 (crc f.bytes).toNat).take (8 + f.payload.length) = f.bytes := by
    rw [← hlen, List.take_left]
  have htotal : (f.bytes ++ enc16 (crc f.bytes).toNat).length = 8 + f.payload.length + 2 := by
    rw [List.length_append, hlen]
    rfl
  unfold checkFailure
  dsimp only
  rw [hbyte, htake, hfield, htotal, if_neg (by omega), if_neg (by simp)]

/-- Settles O18: the register XORed with its own bytes shifts out to 0; the checks then read back what was written. -/
theorem crcAgrees : Obligations.CrcAgrees := ⟨crc_residue, checkFailure_sent⟩

/-! ## Selectors (R28, R29) -/

/-- R29: address and value agree where the mask is 0. -/
theorem masked_xor_eq_zero (a v m : Word16) :
    ((a.extractLsb' 0 10 ^^^ v.extractLsb' 0 10) &&& ~~~(m.extractLsb' 0 10) = 0) ↔
      ∀ i < 10, m.getLsbD i = false → a.getLsbD i = v.getLsbD i := by
  rw [← BitVec.toNat_inj]
  constructor
  · intro h i hi hm
    have hbit : ((a.extractLsb' 0 10 ^^^ v.extractLsb' 0 10) &&& ~~~(m.extractLsb' 0 10)).getLsbD i = false := by
      rw [BitVec.toNat_inj.mp h]
      simp
    simpa [hi, hm] using hbit
  · intro h
    rw [BitVec.toNat_inj]
    ext i hi
    by_cases hm : m.getLsbD i = false
    · simp [h i hi hm]
    · simp [Bool.eq_true_of_not_eq_false hm]

/-- R29: every mask bit is 1. -/
theorem mask_eq_ones (m : Word16) : m.extractLsb' 0 10 = 0x3FF ↔ ∀ i < 10, m.getLsbD i = true := by
  have hones : ∀ i (hi : i < 10), (0x3FF#10)[i] = true := by decide
  constructor
  · intro h i hi
    have hbit : (m.extractLsb' 0 10).getLsbD i = (0x3FF#10).getLsbD i := by rw [h]; rfl
    simpa [hi, hones i hi] using hbit
  · intro h
    change _ = 0x3FF#10
    ext i hi
    rw [hones i hi]
    simpa using h i hi

theorem selected_of_addr {s : State} {h : Hdr} (hm : h.mode = 2) :
    s.selected h = addrMatches s.mu.addr h.value h.maskBits := by
  simp [State.selected, hm]

/-- Settles O9: by the mode, and in mode ADDR bit by bit. -/
theorem selectorsMatch : Obligations.SelectorsMatch := by
  intro s h
  refine ⟨fun hm => ?_, fun hm => ?_, fun hm ha => ?_, fun hm ha => ?_, fun hm => ?_⟩
  · simp [State.selected, hm]
  · simp only [State.selected, hm, posMatches]
    cases s.line.hop <;> simp
  · rw [selected_of_addr hm, addrMatches, if_neg ha, decide_eq_true_eq]
    exact masked_xor_eq_zero s.mu.addr h.sel h.mask
  · rw [selected_of_addr hm, addrMatches, if_pos ha, decide_eq_true_eq]
    exact mask_eq_ones h.mask
  · simp [State.selected, hm]

/-! ## The fields written at the start of a transmission (R18, R31, R36) -/

/-- Settles O15: by the origin of the frame. -/
theorem fieldsWritten : Obligations.FieldsWritten := by
  intro u f stamp
  have hhop : ∀ b : Byte, nextHop b = if b = 255 then 255 else b + 1 := fun _ => rfl
  refine ⟨by simp [State.written, hhop], rfl, fun l hlen => ?_, fun hlen => ?_, fun _ => rfl, fun x o ho => ?_⟩
  · have hbound : min 4294967295 ((word32At f.payload 6).toNat + l + (BitVec.ofNat 32 u.now - stamp).toNat) < 2 ^ 32 := by omega
    have hshape : (u.written ⟨f, some stamp, .relayTime l⟩).payload = f.payload.take 6 ++
        enc32 (min 4294967295 ((word32At f.payload 6).toNat + l + (BitVec.ofNat 32 u.now - stamp).toNat)) ++
        f.payload.drop 10 := rfl
    refine ⟨rfl, ?_, ?_⟩
    · rw [hshape]
      simp [enc32, hlen]
    · rw [hshape]
      generalize min 4294967295 _ = a at hbound ⊢
      have hread : word32At (f.payload.take 6 ++ (enc32 a ++ f.payload.drop 10)) 6 = BitVec.ofNat 32 a := by
        have h6 : (f.payload.take 6).length = 6 := by simp [hlen]
        have := word32At_enc32 (BitVec.ofNat 32 a) (f.payload.drop 10)
        rw [BitVec.toNat_ofNat, Nat.mod_eq_of_lt hbound] at this
        rw [← this, word32At, word32At]
        have h1 := word16At_append_right (f.payload.take 6) (enc32 a ++ f.payload.drop 10) 0
        have h2 := word16At_append_right (f.payload.take 6) (enc32 a ++ f.payload.drop 10) 2
        rw [h6] at h1 h2
        rw [h1, h2]
      rw [List.append_assoc, hread, BitVec.toNat_ofNat, Nat.mod_eq_of_lt hbound]
  · refine ⟨rfl, ?_, ?_⟩
    · simp [State.written, enc32, hlen]
    · exact word32At_enc32 _ _
  · obtain rfl | rfl := ho
    all_goals
      refine ⟨fun hop hh => ?_, fun hh => ?_⟩
      · simp [State.written, hh, hopCode]
      · simp [State.written, hh, hopCode]

end Sys2Proof.Machine

/-! PROOFS. The machine as a whole: the queue of waiting commands, well-formed commands, and the node held in reset (R191). -/

namespace Sys2Proof.Machine

/-- Settles O1: the two cases of the queue. -/
theorem frontCommandRuns : Obligations.FrontCommandRuns := by
  refine ⟨fun c s q hq => ?_, fun s hq => ?_⟩
  · rw [step, hq]
  · rw [step, hq]

/-! ## Well-formed commands -/

/-- R197: the record bytes stand behind five others. -/
theorem fits_writePayload (space : Byte) (start : Word16) (count : Byte) (data : List Byte) :
    fits (writePayload space start count data) = recordsFit data := by
  have hlen : (writePayload space start count data).length = 5 + data.length := by
    simp [writePayload, enc16]
    omega
  simp only [fits, recordsFit, hlen, decide_eq_decide]
  omega

theorem writeRequest_carried {α : Type} (dt : Nat) (h : Hdr) (space : Byte) (sp : Space)
    (dec : Nat → List Byte → Option α) (owner : State → Option Status) (start : Word16) (count : Byte) (data : List Byte)
    (change : List (Option α) → State → State) (s : State) :
    ∃ t, s.writeRequest dt h space sp dec owner start count data change = carried (recordsFit data) t := by
  rw [State.writeRequest, fits_writePayload]
  exact ⟨_, rfl⟩

/-- Every command has one effect, carried where it is well-formed. -/
theorem exec_carried (c : Instr) (s : State) : ∃ t, exec c s = carried c.wellFormed t := by
  cases c with
  | writeSched => exact writeRequest_carried ..
  | writeCalendar => exact writeRequest_carried ..
  | writeWeekplan => exact writeRequest_carried ..
  | writeWindows => exact writeRequest_carried ..
  | writeZoneattr => exact writeRequest_carried ..
  | writeTones => exact writeRequest_carried ..
  | writeClockcfg => exact writeRequest_carried ..
  | writeSupcfg => exact writeRequest_carried ..
  | writeDrillprog => exact writeRequest_carried ..
  | writeNodecfg => exact writeRequest_carried ..
  | writeTableBadSpace dt h space start count data =>
    change ∃ t, execWriteTableBadSpace dt h space start count data s = carried (recordsFit data && _) t
    rw [execWriteTableBadSpace, fits_writePayload]
    exact ⟨_, rfl⟩
  | _ => exact ⟨_, rfl⟩

theorem release_pending (s : State) (key : Bool) (sweeps : Byte) (supply : Bool) :
    (s.release key sweeps supply).pending = s.pending := by
  have hvalues : (s.fullResetValues key sweeps supply).pending = s.pending := rfl
  unfold State.release
  dsimp only
  split <;> simp [hvalues]

/-- No act of a command touches the queue of waiting commands. -/
theorem pending_kept (q : List Instr) : Kept (fun t => t.pending = q) where
  toLineKept := by constructor <;> intros <;> simpa
  toTimeKept := by constructor <;> intros <;> simpa
  toSoundKept := by constructor <;> intros <;> simpa
  toPlantKept := by constructor <;> intros <;> simpa
  toRequestKept := by constructor <;> intros <;> simpa
  toWriteKept := by constructor <;> intros <;> simpa [release_pending]

/-- Settles O2: the effect is carried or refused, and each act of it keeps the queue. -/
theorem wellFormedCommandsComplete : Obligations.WellFormedCommandsComplete := by
  intro c s
  obtain ⟨t, he⟩ := exec_carried c s
  refine ⟨fun hwell => ?_, fun hill => ?_⟩
  · rw [hwell, carried_true] at he
    exact ⟨t, he, (pending_kept s.pending).exec rfl he⟩
  · rw [he, hill]
    rfl

/-! ## The node held in reset (R191) -/

/-- R191: of an event of the running node only the passing of time is left. -/
theorem live_held_keepsBut {s t : State} (hh : s.held = true) {b : Bool} {dt : Nat} {act : State → State}
    (he : carried b (live dt act s) = .next t) : s.keepsBut t [.now] := by
  obtain ⟨-, rfl⟩ := carried_next he
  rw [live_held hh, State.elapse_held hh]
  intro p hp
  cases p <;> simp [State.samePart] at hp ⊢

/-- Every command but the resets, the events of the backup supply and LOCAL_TICK is an event of the running node. -/
theorem exec_live (c : Instr) (s : State) (hheld : ∀ dt w, c ≠ .resetHeld dt w) (hreset : ∀ dt k m, c ≠ .fullReset dt k m)
    (hsecond : ∀ dt, c ≠ .backupCounterSecond dt) (hloss : ∀ dt, c ≠ .backupSupplyLoss dt) (htick : ∀ b, c ≠ .localTick b) :
    ∃ b dt act, exec c s = carried b (live dt act s) := by
  cases c with
  | resetHeld dt w => exact absurd rfl (hheld dt w)
  | fullReset dt k m => exact absurd rfl (hreset dt k m)
  | backupCounterSecond dt => exact absurd rfl (hsecond dt)
  | backupSupplyLoss dt => exact absurd rfl (hloss dt)
  | localTick b => exact absurd rfl (htick b)
  | frameCheckFailed | time | audio | pageOpen | pageClose | bellNow | select | drillStart | drillAbort | drillAllClear
  | drillBadCommand | mgmtRpl | notice | echoReq | echoRpl | unknownKind | writeSched | writeCalendar | writeWeekplan
  | writeWindows | writeZoneattr | writeTones | writeClockcfg | writeSupcfg | writeDrillprog | writeNodecfg
  | unknownRequest | writeTableBadSpace => exact ⟨_, _, _, rfl⟩
  | _ => exact ⟨true, _, _, rfl⟩

/-- Settles O4: a tick is not taken, and of any other event the time passes. -/
theorem heldNodeStandsStill : Obligations.HeldNodeStandsStill := by
  intro c s t hh hheld hreset hsecond hloss he
  by_cases htick : ∃ b, c = .localTick b
  · obtain ⟨b, rfl⟩ := htick
    change execLocalTick b s = .next t at he
    rw [execLocalTick, if_pos hh] at he
    obtain rfl := Host.Outcome.next.inj he
    intro p _
    cases p <;> rfl
  · obtain ⟨b, dt, act, hlive⟩ := exec_live c s hheld hreset hsecond hloss fun b hb => htick ⟨b, hb⟩
    exact live_held_keepsBut hh (hlive ▸ he)

end Sys2Proof.Machine

/-! PROOFS. The campus line (Chapter 2): reception, the hop position, frames not taken, transmission and the link states
(R22 to R27, R30, R38, R39). -/

namespace Sys2Proof.Machine

/-! ## Ports and queues as time passes -/

@[simp] theorem port_elapse (s : State) (dt : Nat) (p : PortId) : (s.elapse dt).port p = s.port p := by
  cases p <;> simp [State.port]

/-- R196: of the Timebase a notice shows D and T, or that they are held at 0. -/
theorem noticePayload_congr {s t : State} (haddr : t.mu.addr = s.mu.addr) (hq : t.tb.quality = s.tb.quality)
    (hday : t.tb.day = s.tb.day) (hms : t.tb.ms = s.tb.ms) (cls : NoticeClass) (code : Nat) (args : List Byte) :
    t.noticePayload cls code args = s.noticePayload cls code args := by
  rw [State.noticePayload, State.noticePayload, haddr, hq, hday, hms]

/-- R184: a notice raised in t joins the UP normal that t has of s. -/
theorem noticed_of_raise {s t : State} {cls : NoticeClass} (hen : cls.enabled s.mu.node.enables = true)
    (hroom : s.line.up.normal.length < 32) (hmu : t.mu = s.mu) (hnormal : t.line.up.normal = s.line.up.normal)
    (hq : t.tb.quality = s.tb.quality) (hday : t.tb.day = s.tb.day) (hms : t.tb.ms = s.tb.ms) (code : Nat)
    (args : List Byte) : s.noticed (t.raise cls code args) cls code args := by
  have hr : t.hasRoom .upNormal = true := by
    rw [State.hasRoom, State.queue, hnormal]
    exact decide_eq_true hroom
  have := raise_noticed (s := t) (c := cls) (hmu ▸ hen) hr code args
  rwa [State.noticed, noticePayload_congr (by rw [hmu]) hq hday hms, hnormal] at this

/-! ## Counters (Conventions) -/

theorem counter_countN_of_ne (s : State) {c d : Counter} (k : Nat) (h : d ≠ c) : (s.countN c k).counter d = s.counter d :=
  State.counter_countN_ne s k (Counter.index_ne h)

theorem counter_count_of_ne (s : State) {c d : Counter} (h : d ≠ c) : (s.count c).counter d = s.counter d :=
  State.counter_count_ne s (Counter.index_ne h)

theorem counter_join_of_ne (s : State) {q : QueueId} {d : Counter} (h : d ≠ q.fullCounter) (i : QItem) :
    (s.join q i).counter d = s.counter d := by
  obtain ⟨-, he⟩ | ⟨-, he⟩ := join_cases s q i
  · simp [he]
  · rw [he, counter_count_of_ne s h]

theorem counter_copyDown_of_ne (s : State) {q : QueueId} {d : Counter} (h : d ≠ q.fullCounter) (f : Frame) (w : Word32)
    (o : Origin) : (s.copyDown q f w o).counter d = s.counter d := by
  unfold State.copyDown State.joinDown
  split
  · exact counter_join_of_ne s h _
  · rfl

theorem counter_raise_of_ne (s : State) {d : Counter} (hfull : d ≠ .unFull) (hlost : d ≠ .noticesLost) (c : NoticeClass)
    (k : Nat) (a : List Byte) : (s.raise c k a).counter d = s.counter d := by
  obtain ⟨-, h⟩ | ⟨-, -, h⟩ | ⟨-, -, h⟩ := raise_cases s c k a
  · rw [h]
  · simp [h]
  · rw [h, counter_count_of_ne _ hlost, counter_count_of_ne _ hfull]

theorem counter_elapse_of_ne (s : State) {d : Counter} (h : d ≠ .skipped) (dt : Nat) :
    (s.elapse dt).counter d = s.counter d :=
  s.elapse_counter_ne (Counter.index_ne h) dt

theorem counter_arrived_of_ne (s : State) {d : Counter} (hskip : d ≠ .skipped) (hfull : d ≠ .unFull)
    (hlost : d ≠ .noticesLost) (dt : Nat) (h : Hdr) : (s.arrived dt h).counter d = s.counter d := by
  have hend : ((s.elapse dt).endReception h.port).counter d = s.counter d := by
    rw [State.endReception, State.counter_setPort, counter_elapse_of_ne s hskip]
  unfold State.arrived State.learnAt State.learnHop
  split
  · split
    · exact hend
    · exact (counter_raise_of_ne _ hfull hlost _ _ _).trans hend
  · exact hend

/-! ## Reception (R25, R26) -/

/-- R25: a frame under reception at an ACTIVE port is dropped. -/
theorem live_discard {s : State} {p : PortId} (hc : s.canHear p) (dt : Nat) (c : Counter) :
    live dt (fun t => t.discardReception p c) s =
      ((s.elapse dt).setPort p { s.port p with rx := none }).count c := by
  rw [live_running hc.1, State.discardReception, hears_elapse hc dt, if_pos rfl, State.endReception, port_elapse]

/-- Settles O8: each event acts on the port as it stands. -/
theorem receptionEnds : Obligations.ReceptionEnds := by
  intro s dt p hh hl
  constructor
  · change Host.Outcome.next (live dt (fun t => t.beginReception p) s) = _
    rw [live_running hh, State.beginReception, port_elapse, if_pos hl]
  · intro hrx
    have hc : s.canHear p := ⟨hh, hl, hrx⟩
    refine ⟨congrArg _ (live_discard hc dt _), congrArg _ (live_discard hc dt _), fun bytes hlen => ?_⟩
    refine ⟨fun hf => ?_, fun hf => ?_⟩
    all_goals
      change carried (failsCheck bytes) (live dt (fun t => t.dropFailed p bytes) s) = _
      rw [live_running hh, State.dropFailed, hears_elapse hc dt, if_pos rfl, State.endReception, port_elapse]
      simp [failsCheck, hf, hlen]

/-! ## The hop position (R30) -/

/-- R30: a frame of the position held teaches nothing. -/
theorem arrived_of_hop {s : State} {dt : Nat} {h : Hdr} (hhop : (s.arrived dt h).line.hop = s.line.hop) :
    s.arrived dt h = (s.elapse dt).endReception h.port := by
  have hline : ((s.elapse dt).endReception h.port).line.hop = s.line.hop := by
    cases hp : h.port <;> simp [State.endReception, State.setPort]
  unfold State.arrived State.learnAt
  split
  · next hp =>
    rw [arrived_up_hop hp] at hhop
    rw [State.learnHop, if_pos (hline.trans hhop.symm)]
  · rfl

/-- Settles O10: the notice of a change is raised with the old and the new position. -/
theorem positionLearned : Obligations.PositionLearned := by
  intro s dt h
  refine ⟨fun hp => arrived_up_hop hp s dt, fun hp => by rw [arrived_down_line hp], arrived_of_hop, ?_⟩
  intro new hnew hold hen hroom
  have hp : h.port = .up := by
    cases hp : h.port with
    | up => rfl
    | down =>
      rw [arrived_down_line hp] at hnew
      exact absurd hnew hold
  rw [arrived_up_hop hp] at hnew
  have hnext : nextHop h.hops = new := Option.some.inj hnew
  have hlearn : s.arrived dt h = ({ (s.elapse dt).endReception .up with
      line := { ((s.elapse dt).endReception .up).line with hop := some new } }).raise .line 4
        [BitVec.ofNat 8 (hopCode s.line.hop), new] := by
    have hline : ((s.elapse dt).endReception .up).line.hop = s.line.hop := by simp [State.endReception, State.setPort]
    rw [State.arrived, State.learnAt, if_pos hp, hp, State.learnHop, if_neg (by rw [hline, hnext]; exact hold), hline, hnext]
    rfl
  rw [hlearn]
  exact noticed_of_raise (s := s.elapse dt) (by simpa [NoticeClass.enabled] using hen) (by simpa using hroom) (by simp)
    (by simp [State.endReception, State.setPort, State.port]) (by simp [State.endReception])
    (by simp [State.endReception]) (by simp [State.endReception]) 4 _

/-! ## Frames not taken (R27, R8) -/

/-- R27: a frame that belongs to UP is counted at DOWN. -/
theorem live_wrong_down {s : State} {h : Hdr} (hc : s.canHear h.port) (hp : h.port = .down) (dt : Nat)
    (act : State → State) :
    live dt (State.receive .up h act) s = ((s.elapse dt).endReception .down).count .wrongDirection := by
  rw [live_running hc.1, receive_wrong hc (by rw [hp]; simp), arrived_down hp]

theorem carried_wrong_down {s : State} {h : Hdr} (hc : s.canHear h.port) (hp : h.port = .down) (dt : Nat)
    (act : State → State) {b : Bool} (hb : b = true) :
    carried b (live dt (State.receive .up h act) s) =
      .next (((s.elapse dt).endReception .down).count .wrongDirection) := by
  rw [hb, carried_true, live_wrong_down hc hp]

/-- R27: a frame that belongs to DOWN is counted at UP. -/
theorem carried_wrong_up {s : State} {h : Hdr} (hc : s.canHear h.port) (hp : h.port = .up) (dt : Nat)
    (act : State → State) {b : Bool} (hb : b = true) :
    carried b (live dt (State.receive .down h act) s) = .next ((s.arrived dt h).count .wrongDirection) := by
  rw [hb, carried_true, live_running hc.1, receive_wrong hc (by rw [hp]; simp)]

/-- R27: an ECHO_RPL at DOWN is counted. -/
theorem exec_echoRpl_down {s : State} {h : Hdr} {payload : List Byte} (hc : s.canHear h.port) (hp : h.port = .down)
    (hlen : payload.length ≤ 240) (dt : Nat) :
    exec (.echoRpl dt h payload) s = .next (((s.elapse dt).endReception .down).count .wrongDirection) := by
  have hfits : fits payload = true := by simp [fits, hlen]
  change carried (fits payload) (live dt (fun t => t.echoReplied h payload) s) = _
  rw [hfits, carried_true, live_running hc.1, State.echoReplied, hears_elapse hc dt, if_pos rfl]
  simp [hp]

/-- R8: a TIME frame that is not accepted is counted and goes on as received. -/
theorem exec_time_discarded {s : State} {h : Hdr} {payload : List Byte} (hc : s.canHear h.port) (hp : h.port = .up)
    (hlen : payload.length ≤ 240) (hf : timeFields payload = none) (dt : Nat) (lag : Word32) (first : Bool) :
    exec (.time dt h payload lag first) s = .next (((s.arrived dt h).count .timeDiscard).copyDown .downExpress
      (h.frame 0x01 payload) (BitVec.ofNat 32 (s.now + dt)) .relayDown) := by
  have hfits : fits payload = true := by simp [fits, hlen]
  change execTime dt h payload lag first s = _
  rw [execTime, hfits, carried_true, live_running hc.1, State.timeFrame, ← hp, receive_proper hc]
  simp [hf, State.localCount]

/-- Settles O13: the frames of each direction by the one reception they share. -/
theorem framesNotTaken : Obligations.FramesNotTaken := by
  intro s dt h payload lag first hc hlen
  have hfits : fits payload = true := by simp [fits, hlen]
  refine ⟨fun hp => ⟨?_, fun rest hrest => ?_, fun hbad => ?_, fun hreq => ?_, ?_⟩, fun hp => ?_, fun hp hbad => ?_⟩
  · simp only [List.forall_mem_cons]
    exact ⟨carried_wrong_down hc hp dt _ hfits, carried_wrong_down hc hp dt _ hfits, carried_wrong_down hc hp dt _ hfits,
      carried_wrong_down hc hp dt _ hfits, carried_wrong_down hc hp dt _ hfits, carried_wrong_down hc hp dt _ hfits,
      exec_echoRpl_down hc hp hlen dt, by simp⟩
  · have hrow : ∀ c : Byte, fits (c :: rest) = true := fun c => by simp [fits]; omega
    simp only [List.forall_mem_cons]
    exact ⟨carried_wrong_down hc hp dt _ (hrow 1), carried_wrong_down hc hp dt _ (hrow 2),
      carried_wrong_down hc hp dt _ (hrow 3), by simp⟩
  · exact carried_wrong_down hc hp dt _ (by simp [hfits, hbad])
  · exact carried_wrong_down hc hp dt _ (by simp [hfits, hreq])
  · intro bank start space count clear n pol data hdata
    have hrecords : ∀ sp : Byte, fits (writePayload sp start count data) = true := fun sp => by
      simp [fits_writePayload, recordsFit, hdata]
    have hwrite := fun sp act => carried_wrong_down hc hp dt act (hrecords sp)
    have hrequest := fun act => carried_wrong_down hc hp dt act (b := true) rfl
    refine ⟨?_, fun hspace => carried_wrong_down hc hp dt _ (by simp [hrecords, hspace])⟩
    simp only [List.forall_mem_cons]
    exact ⟨hrequest _, hrequest _, hrequest _, hrequest _, hrequest _, hrequest _, hrequest _, hrequest _, hrequest _,
      hrequest _, hrequest _, hrequest _, hwrite _ _, hwrite _ _, hwrite _ _, hwrite _ _, hwrite _ _, hwrite _ _,
      hwrite _ _, hwrite _ _, hwrite _ _, hwrite _ _, by simp⟩
  · simp only [List.forall_mem_cons]
    exact ⟨carried_wrong_up hc hp dt _ hfits, carried_wrong_up hc hp dt _ hfits, carried_wrong_up hc hp dt _ hfits, by simp⟩
  · have hf : timeFields payload = none := by
      rw [timeFields, if_neg]
      intro hgood
      obtain hl | hms := hbad
      · exact hl hgood.1
      · exact absurd hgood.2 (Nat.not_lt.mpr hms)
    have hdown := arrived_up_line_down hp s dt
    refine ⟨_, exec_time_discarded hc hp hlen hf dt lag first, ?_, ?_, fun hl hroom => ?_⟩
    · exact keepsBut_trans (count_keepsBut _ _ _ (by simp)) (copyDown_keepsBut _ _ _ _ _) (List.Subset.refl _)
    · rw [counter_copyDown_of_ne _ (by simp [QueueId.fullCounter]), State.counter_count_self,
        counter_arrived_of_ne _ (by simp) (by simp) (by simp)]
    · rw [copyDown_express_joins (by simpa [hdown] using hl) (by simpa [hdown] using hroom)]
      simp [hdown]

end Sys2Proof.Machine

/-! PROOFS. The campus line (Chapter 2): transmission (R38, R39) and the link states (R22, R23). -/

namespace Sys2Proof.Machine

/-! ## Transmission (R38, R39) -/

/-- R38: express goes before normal. -/
theorem nextFrame_of_queues {v : Port} {i : QItem} {e n : List QItem}
    (hq : v.express = i :: e ∧ v.normal = n ∨ v.express = [] ∧ e = [] ∧ v.normal = i :: n) :
    v.nextFrame = some (i, e, n) := by
  obtain ⟨he, hn⟩ | ⟨he, rfl, hn⟩ := hq
  · simp [Port.nextFrame, he, hn]
  · simp [Port.nextFrame, he, hn]

/-- R38: the transmitter has sent its byte of idle. -/
theorem idleSent_of_gap {s : State} {p : PortId} (h : ∀ l, (s.port p).lastTxEnd = some l → l + 2 ≤ s.now) :
    s.idleSent p = true := by
  unfold State.idleSent
  split
  · next e he => exact decide_eq_true (h e he)
  · rfl

/-- 2.2: 2 µs for each byte and delimiter. -/
theorem lineUs_eq (f : Frame) : f.lineUs = 2 * (10 + f.payload.length + 2) := Nat.mul_comm _ _

/-- Settles O14: the arbiter's choice, and the end of a frame that is not the LINE_RESET reply. -/
theorem transmissionsRun : Obligations.TransmissionsRun := by
  intro s dt p hh u
  constructor
  · intro i e n hl htx hgap hq f v
    have hstart : exec (.transmitStart dt p) s = .next (if i.origin = .echoReq then v.echoSent else v) := by
      change Host.Outcome.next (live dt (fun t => t.startTransmission p) s) = _
      have hidle : (s.elapse dt).idleSent p = true := idleSent_of_gap (by simpa using hgap)
      rw [live_running hh, State.startTransmission, port_elapse, hl, htx, nextFrame_of_queues hq]
      simp only [hidle, if_true, State.elapse_now, lineUs_eq]
      rfl
    refine ⟨fun ho => by rw [hstart, if_neg ho], fun ho => ?_⟩
    rw [hstart, if_pos ho]
    have hnow : v.now = s.now + dt := by simp [v, u]
    simp [State.echoSent, State.setEcho, State.localCount, hnow, Config.echoReplyUs]
  · intro x htx hends ho
    change Host.Outcome.next (live dt (fun t => t.transmissionEnds p) s) = _
    rw [live_running hh, State.transmissionEnds, port_elapse, htx]
    simp [hends, ho, u]

/-! ## Link states (R22, R23) -/

/-- R15: with no measurement in flight and room a request joins UP express. -/
theorem echoRequest_of_room {s : State} (he : s.tb.echo = .idle) (hr : s.line.up.express.length < 4) :
    s.echoRequest = { s.setQueue .upExpress (s.line.up.express ++ [⟨echoReqFrame (s.tb.echoTag + 1), none, .echoReq⟩]) with
      tb := { s.tb with echoTag := s.tb.echoTag + 1, echo := .queued } } := by
  have hroom : ({ s with tb := { s.tb with echoTag := s.tb.echoTag + 1 } } : State).hasRoom .upExpress = true :=
    decide_eq_true hr
  unfold State.echoRequest
  rw [if_pos he]
  dsimp only
  rw [hroom, if_pos rfl, join_of_room (of_decide_eq_true hroom)]
  rfl

@[simp] theorem echoRequest_echoPeriod (s : State) : s.echoRequest.tb.echoPeriod = s.tb.echoPeriod := by
  unfold State.echoRequest
  dsimp only
  (repeat' split) <;> simp [State.setEcho]

@[simp] theorem echoRequest_campus (s : State) : s.echoRequest.tb.quality = s.tb.quality ∧
    s.echoRequest.tb.day = s.tb.day ∧ s.echoRequest.tb.ms = s.tb.ms := by
  unfold State.echoRequest
  dsimp only
  (repeat' split) <;> simp [State.setEcho]

/-- R15: a request concerns UP express, and of the line nothing else. -/
theorem echoRequest_line (s : State) :
    s.echoRequest.line = { s.line with up := { s.line.up with express := s.echoRequest.line.up.express } } := by
  unfold State.echoRequest
  dsimp only
  split
  · obtain ⟨-, he⟩ | ⟨-, he⟩ := join_cases { s with tb := { s.tb with echoTag := s.tb.echoTag + 1 } } .upExpress
      ⟨echoReqFrame (s.tb.echoTag + 1), none, .echoReq⟩
    all_goals
      rw [he]
      split <;> simp [State.setEcho, State.setQueue]
  · rfl

/-- R22: a port in TRAINING whose timer has ended attaches. -/
theorem live_trained {s : State} (hh : s.held = false) {p : PortId} {e dt : Nat} (hl : (s.port p).link = .training)
    (he : (s.port p).trainingEnd = some e) (hdue : e ≤ s.now + dt) :
    live dt (fun t => t.trained p) s =
      ((s.elapse dt).setPort p { s.port p with link := .active, trainingEnd := none }).attached p := by
  have hexp : (s.elapse dt).expired (some e) = true := by simp [State.expired, hdue]
  rw [live_running hh, State.trained, port_elapse, he, if_pos ⟨hl, hexp⟩]

@[simp] theorem port_raise_down (s : State) (c : NoticeClass) (k : Nat) (a : List Byte) :
    (s.raise c k a).port .down = s.port .down := raise_line_down s c k a

/-- R184: of the UP port a notice concerns UP normal alone. -/
theorem raise_line (s : State) (c : NoticeClass) (k : Nat) (a : List Byte) :
    (s.raise c k a).line = { s.line with up := { s.line.up with normal := (s.raise c k a).line.up.normal } } := by
  obtain ⟨-, h⟩ | ⟨-, -, h⟩ | ⟨-, -, h⟩ := raise_cases s c k a
  · rw [h]
  · simp [h, State.setQueue]
  · simp [h]

/-- R23, R15: UP is ACTIVE and the echo period runs. -/
def State.attaching (s : State) : State :=
  { s.setPort .up { s.port .up with link := .active, trainingEnd := none } with
    tb := { s.tb with echoPeriod := some (s.now + 16000000) } }

/-- R23, R15: the attachment of UP, to the notice. -/
def State.upAttached (s : State) : State := s.attaching.echoRequest

theorem attached_up (s : State) :
    (s.setPort .up { s.port .up with link := .active, trainingEnd := none }).attached .up =
      s.upAttached.raise .line 1 (enc16 (s.counter .upLoss)) := rfl

@[simp] theorem upAttached_mu (s : State) : s.upAttached.mu = s.mu := by simp [State.upAttached, State.attaching]

/-- R23: of UP the attachment changes the link, the training timer and UP express. -/
theorem upAttached_line (s : State) : s.upAttached.line = { s.line with
    up := { s.line.up with link := .active, trainingEnd := none, express := s.upAttached.line.up.express } } := by
  rw [State.upAttached, echoRequest_line]
  rfl

theorem upAttached_campus (s : State) : s.upAttached.tb.quality = s.tb.quality ∧ s.upAttached.tb.day = s.tb.day ∧
    s.upAttached.tb.ms = s.tb.ms ∧ s.upAttached.tb.echoPeriod = some (s.now + 16000000) := by
  simp [State.upAttached, State.attaching]

/-- R15: the first request of an attachment. -/
theorem upAttached_of_room {s : State} (he : s.tb.echo = .idle) (hr : s.line.up.express.length < 4) :
    s.upAttached.tb.echo = .queued ∧ s.upAttached.tb.echoTag = s.tb.echoTag + 1 ∧
      s.upAttached.line.up.express = s.line.up.express ++ [⟨echoReqFrame (s.tb.echoTag + 1), none, .echoReq⟩] := by
  rw [State.upAttached, echoRequest_of_room (s := s.attaching) he hr]
  exact ⟨rfl, rfl, rfl⟩

/-- R23: the attachment of UP touches the line, the Timebase and the counters. -/
theorem attached_keepsBut (s : State) (p : PortId) (v : Port) :
    s.keepsBut ((s.setPort p v).attached p) [.line, .tb, .counters] := by
  intro q hq
  cases q <;> simp [State.samePart] at hq ⊢

/-- R23: what an attachment of UP leaves. -/
theorem attached_up_spec (s : State) :
    let t := (s.setPort .up { s.port .up with link := .active, trainingEnd := none }).attached .up
    (t.port .up).link = .active ∧ (t.port .up).trainingEnd = none ∧ t.tb.echoPeriod = some (s.now + 16000000) ∧
      (s.tb.echo = .idle → s.line.up.express.length < 4 →
        t.tb.echo = .queued ∧ t.tb.echoTag = s.tb.echoTag + 1 ∧
          t.line.up.express = s.line.up.express ++ [⟨echoReqFrame (s.tb.echoTag + 1), none, .echoReq⟩]) ∧
      (s.mu.node.enables.getLsbD 0 = true → s.line.up.normal.length < 32 →
        s.noticed t .line 1 (enc16 (s.counter .upLoss))) := by
  intro t
  have hline := raise_line s.upAttached .line 1 (enc16 (s.counter .upLoss))
  have hattached := upAttached_line s
  obtain ⟨hq, hday, hms, hperiod⟩ := upAttached_campus s
  have ht : t = s.upAttached.raise .line 1 (enc16 (s.counter .upLoss)) := attached_up s
  rw [ht]
  refine ⟨?_, ?_, by simpa using hperiod, fun he hr => ?_, fun hen hroom => ?_⟩
  · rw [State.port, hline, hattached]
  · rw [State.port, hline, hattached]
  · rw [hline]
    simpa using upAttached_of_room he hr
  · exact noticed_of_raise (s := s) (cls := .line) hen hroom (upAttached_mu s) (by rw [hattached]) hq hday hms 1 _

/-- R23: what an attachment of DOWN leaves. -/
theorem attached_down_spec (s : State) :
    let t := (s.setPort .down { s.port .down with link := .active, trainingEnd := none }).attached .down
    (t.port .down).link = .active ∧ (t.port .down).trainingEnd = none ∧ t.tb = s.tb ∧
      (s.mu.node.enables.getLsbD 0 = true → s.line.up.normal.length < 32 →
        s.noticed t .line 2 (enc16 (s.counter .downLoss))) := by
  intro t
  have ht : t = (s.setPort .down { s.port .down with link := .active, trainingEnd := none }).raise .line 2
    (enc16 (s.counter .downLoss)) := rfl
  rw [ht]
  refine ⟨?_, ?_, by simp, fun hen hroom => ?_⟩
  · rw [port_raise_down, State.port_setPort_self]
  · rw [port_raise_down, State.port_setPort_self]
  · exact noticed_of_raise (s := s) (cls := .line) hen hroom (by simp) (by simp [State.setPort]) (by simp) (by simp)
      (by simp) 2 _

theorem lossCounter_ne_skipped (p : PortId) : lossCounter p ≠ .skipped := by
  cases p <;> simp [lossCounter]

/-- Settles O5: the exact moves, and what follows ACTIVE at either port. -/
theorem portAttaches : Obligations.PortAttaches := by
  intro s dt p hh
  refine ⟨fun hl => ?_, fun e hl he hdue => ?_, fun hl => ?_, fun hl => ?_, fun e hl he hdue => ?_⟩
  · change Host.Outcome.next (live dt (fun t => t.signalPresent p) s) = _
    rw [live_running hh, State.signalPresent, port_elapse, if_pos hl]
    simp [Config.debounceUs]
  · change Host.Outcome.next (live dt (fun t => t.debounced p) s) = _
    have hexp : (s.elapse dt).expired (some e) = true := by simp [State.expired, hdue]
    rw [live_running hh, State.debounced, port_elapse, he, if_pos ⟨hl, hexp⟩]
    simp [Config.trainingUs]
  · change Host.Outcome.next (live dt (fun t => t.retrain p) s) = _
    rw [live_running hh, State.retrain, port_elapse, if_pos hl]
    simp [Config.trainingUs]
  · change Host.Outcome.next (live dt (fun t => t.attachLost p) s) = _
    rw [live_running hh, State.attachLost, port_elapse, if_pos hl]
  · refine ⟨_, congrArg Host.Outcome.next (live_trained hh hl he hdue), ?_⟩
    rw [← port_elapse s dt p, ← counter_elapse_of_ne s (lossCounter_ne_skipped p) dt]
    have hkeeps := attached_keepsBut (s.elapse dt) p { (s.elapse dt).port p with link := .active, trainingEnd := none }
    cases p with
    | up =>
      obtain ⟨hlink, htrain, hperiod, hecho, hnotice⟩ := attached_up_spec (s.elapse dt)
      exact ⟨hlink, htrain, fun _ => by simpa using hperiod, fun _ => by simpa using hecho, by simp,
        by simpa [lossCounter] using hnotice, hkeeps⟩
    | down =>
      obtain ⟨hlink, htrain, htb, hnotice⟩ := attached_down_spec (s.elapse dt)
      exact ⟨hlink, htrain, by simp, by simp, fun _ => htb, by simpa [lossCounter] using hnotice, hkeeps⟩

end Sys2Proof.Machine

/-! PROOFS. Campus time (Chapter 1): the echo measurement (R15 to R17), the timers (R14, R19), the local millisecond (R1 to R5)
and the step (R11, R12). -/

namespace Sys2Proof.Machine

/-! ## The echo measurement (R16, R17) -/

/-- R16: an ECHO_RPL received at UP is taken by the Timebase. -/
theorem exec_echoRpl_up {s : State} {h : Hdr} {payload : List Byte} (hc : s.canHear .up) (hp : h.port = .up)
    (hlen : payload.length = 11) (dt : Nat) :
    exec (.echoRpl dt h payload) s = .next (((s.elapse dt).endReception .up).takeEchoReply h.tag payload) := by
  have hfits : fits payload = true := by simp [fits, hlen]
  change carried (fits payload) (live dt (fun t => t.echoReplied h payload) s) = _
  rw [hfits, carried_true, live_running hc.1, State.echoReplied, hp, hears_elapse hc dt, if_pos rfl]
  rfl

/-- R16: the reply that is awaited. -/
theorem takeEchoReply_of_awaiting {s : State} {t1 : Word32} {e : Nat} (he : s.tb.echo = .awaiting t1 e)
    {payload : List Byte} (hlen : payload.length = 11) :
    s.takeEchoReply s.tb.echoTag payload =
      (if (s.localCount - t1).toNat < (word32At payload 0).toNat then (s.count .echoInvalid).setEcho .idle
       else (s.takeSample (min 50000 (((s.localCount - t1).toNat - (word32At payload 0).toNat) / 2))).setEcho .idle) := by
  rw [State.takeEchoReply, he]
  simp [hlen]

/-- R17: the first sample becomes L. -/
theorem takeSample_first {s : State} (h : s.tb.sampleTaken = false) (m : Nat) :
    s.takeSample m = { s with tb := { s.tb with linkDelay := m, sampleTaken := true } } := by
  rw [State.takeSample, h, if_neg Bool.false_ne_true]
  rfl

/-- Settles O24: by the two comparisons of R16 and R17. -/
theorem echoMeasured : Obligations.EchoMeasured := by
  intro s dt h payload t1 e hc hp he hlen htag r turn m v
  have hve : v.tb.echo = .awaiting t1 e := by simpa [v] using he
  have hvtag : h.tag = v.tb.echoTag := by simpa [v] using htag
  have hcount : v.localCount = BitVec.ofNat 32 (s.now + dt) := by simp [v, State.localCount]
  have hsample : v.tb.sampleTaken = s.tb.sampleTaken := by simp [v]
  have hdelay : v.tb.linkDelay = s.tb.linkDelay := by simp [v]
  refine ⟨_, exec_echoRpl_up hc hp hlen dt, ?_⟩
  change (v.takeEchoReply h.tag payload).tb.echo = _ ∧ _
  rw [hvtag, takeEchoReply_of_awaiting hve hlen, hcount]
  by_cases hr : r < turn
  · rw [if_pos hr]
    exact ⟨rfl, fun _ => rfl, fun hle => absurd hr (Nat.not_lt.mpr hle), fun hle => absurd hr (Nat.not_lt.mpr hle)⟩
  · rw [if_neg hr]
    refine ⟨rfl, fun hlt => absurd hlt hr, fun _ hfirst => ?_, fun _ hlater => ?_⟩
    · rw [takeSample_first (hsample.trans hfirst)]
      rfl
    · rw [← hsample] at hlater
      refine ⟨?_, ?_⟩
      · simp only [State.takeSample, State.setEcho, hlater, if_true, hdelay]
        omega
      · simp [State.takeSample, State.setEcho, hlater]

/-! ## The timers (R14, R15, R16, R19) -/

/-- Settles O23: each timer at its end. -/
theorem timebaseTimers : Obligations.TimebaseTimers := by
  intro s dt
  refine ⟨fun e hh hq he hdue => ?_, fun e hh hidle he hdue hroom => ?_, fun t1 e hh he hdue => ?_, fun hok hlt => ?_,
    fun hok hmid => ?_⟩
  · have hexp : (s.elapse dt).expired (s.elapse dt).tb.timeoutEnd = true := by simp [he, State.expired, hdue]
    refine ⟨_, congrArg Host.Outcome.next (live_running hh), ?_, ?_⟩
    · rw [State.timeoutEnds, if_pos hexp]
      simp [hq]
    · intro p hp
      cases p <;> simp [State.samePart] at hp ⊢
  · refine ⟨_, congrArg Host.Outcome.next (live_running hh), ?_⟩
    have hstart : (s.elapse dt).echoPeriodEnds =
        ({ s.elapse dt with tb := { (s.elapse dt).tb with echoPeriod := some (e + 16000000) } } : State).echoRequest := by
      rw [State.echoPeriodEnds, show (s.elapse dt).tb.echoPeriod = some e by simp [he]]
      simp [hdue, Config.echoPeriodUs]
    have hticked := echoRequest_of_room
      (s := { s.elapse dt with tb := { (s.elapse dt).tb with echoPeriod := some (e + 16000000) } })
      (by simpa using hidle) (by simpa using hroom)
    rw [hstart, hticked]
    refine ⟨by simp, by simp [State.setQueue], ?_⟩
    intro p hp
    cases p <;> simp [State.samePart, State.setQueue] at hp ⊢
  · change Host.Outcome.next (live dt State.echoTimesOut s) = _
    rw [live_running hh, State.echoTimesOut, show (s.elapse dt).tb.echo = .awaiting t1 e by simp [he]]
    simp [hdue, State.setEcho]
  · change Host.Outcome.next (s.elapse dt).backupSecond = _
    rw [State.backupSecond]
    simp [hok, hlt]
  · change Host.Outcome.next (s.elapse dt).backupSecond = _
    rw [State.backupSecond]
    simp [hok, hmid]

/-! ## The local millisecond (R1 to R5) -/

/-- R1: a tick that is due falls after the rest of its millisecond, and keeps the µs by which it is late. -/
theorem elapsed_tick {s : State} (hh : s.held = false) (hq : s.tb.quality = .invalid) :
    (s.elapse (1000 - s.tb.phase)).tb.tick = { s.tb with
      phase := s.tb.phase - 1000, slewCount := if s.tb.slewCount < 49 then s.tb.slewCount + 1 else 0 } := by
  have hphase : s.tb.phase + (1000 - s.tb.phase) - 1000 = s.tb.phase - 1000 := by omega
  rw [State.elapse_running hh]
  simp [Timebase.tick, hq, hphase]

/-- R3: in a quality that runs, T, D and C move as well. -/
theorem elapsed_tick_running {s : State} (hh : s.held = false) (hq : s.tb.quality ≠ .invalid) :
    (s.elapse (1000 - s.tb.phase)).tb.tick =
      (let n := if s.tb.slewCount < 49 then s.tb.slewCount + 1 else 0
       let a := tickAdvance (decide (n = 0)) s.tb.slew
       { s.tb with
         phase := s.tb.phase - 1000, slewCount := n, slew := a.2, ms := (s.tb.ms + a.1) % 86400000,
         day := if s.tb.ms + a.1 < 86400000 then s.tb.day else s.tb.day + 1 }) := by
  have hphase : s.tb.phase + (1000 - s.tb.phase) - 1000 = s.tb.phase - 1000 := by omega
  rw [State.elapse_running hh]
  simp [Timebase.tick, hq, hphase, Config.dayMs]

@[simp] theorem localTickEvent_now (s : State) (b : Bool) : (s.localTickEvent b).now = s.now + (1000 - s.tb.phase) := by
  unfold State.localTickEvent
  dsimp only
  split <;> simp

theorem exec_localTick {s : State} (hh : s.held = false) (b : Bool) : exec (.localTick b) s = .next (s.localTickEvent b) := by
  change Host.Outcome.next (if s.held then s else s.localTickEvent b) = _
  rw [hh]
  rfl

/-- Settles O22: the tick, and what its events leave. -/
theorem tickMovesTime : Obligations.TickMovesTime := by
  intro s first hh n
  constructor
  · refine fun hq => ⟨_, exec_localTick hh first, ?_⟩
    have hevent : s.localTickEvent first = { s.elapse (1000 - s.tb.phase) with
        tb := (s.elapse (1000 - s.tb.phase)).tb.tick } := by
      unfold State.localTickEvent
      dsimp only
      rw [if_pos hq]
    have htb := elapsed_tick hh hq
    refine ⟨by rw [localTickEvent_tb, htb], ?_, localTickEvent_now s first, ?_, fun d hd => ?_⟩
    · rw [localTickEvent_tb, htb]
      exact Timebase.us_invalid hq
    · rw [hevent]
      intro p hp
      cases p <;> simp [State.samePart] at hp ⊢
    · rw [hevent]
      exact counter_elapse_of_ne s hd _
  · intro hq adv c
    refine ⟨_, exec_localTick hh first, ?_⟩
    have htb := elapsed_tick_running hh hq
    have hadv : tickAdvance (decide (n = 0)) s.tb.slew = (adv, c) := by
      by_cases hn : n = 0
      · by_cases h1 : 0 < s.tb.slew
        · simp [tickAdvance, adv, c, hn, h1]
        · by_cases h2 : s.tb.slew < 0
          · simp [tickAdvance, adv, c, hn, h1, h2]
          · simp [tickAdvance, adv, c, hn, h1, h2]
      · simp [tickAdvance, adv, c, hn]
    refine ⟨localTickEvent_now s first, fun hphase => ?_, ?_, ?_⟩
    · have hlate : (s.localTickEvent first).tb.phase = s.tb.phase - 1000 := by rw [localTickEvent_tb, htb]
      have hrunning : (s.localTickEvent first).tb.quality ≠ .invalid := by rw [localTickEvent_tb, htb]; exact hq
      rw [Timebase.us_running hrunning, hlate]
      omega
    · rw [localTickEvent_tb, htb]
      dsimp only
      rw [hadv]
    · intro p hp
      cases p <;> simp [State.samePart] at hp ⊢

/-! ## The step (R12) -/

/-- R3, R12: the local milliseconds of a lag: the local time and the µs since the last tick go on, and the slew counter
counts them. -/
theorem localTicks_clock {s : State} (hh : s.held = false) (hslew : s.tb.slewCount < 50) (b : Bool) (n : Nat) :
    (s.localTicks b n).now = s.now + (1000 * n - s.tb.phase) ∧
      (s.localTicks b n).tb.phase = s.tb.phase - 1000 * n ∧
      (s.localTicks b n).tb.slewCount = (s.tb.slewCount + n) % 50 := by
  induction n generalizing s with
  | zero => exact ⟨by simp [State.localTicks], by simp [State.localTicks], (Nat.mod_eq_of_lt hslew).symm⟩
  | succ n ih =>
    have hphase : (s.localTickEvent b).tb.phase = s.tb.phase - 1000 := by
      rw [localTickEvent_tb]
      by_cases hq : s.tb.quality = .invalid
      · rw [elapsed_tick hh hq]
      · rw [elapsed_tick_running hh hq]
    have hcount : (s.localTickEvent b).tb.slewCount = if s.tb.slewCount < 49 then s.tb.slewCount + 1 else 0 := by
      rw [localTickEvent_tb]
      by_cases hq : s.tb.quality = .invalid
      · rw [elapsed_tick hh hq]
      · rw [elapsed_tick_running hh hq]
    obtain ⟨hnow, hp, hc⟩ := ih (s := s.localTickEvent b) (by simp [hh]) (by rw [hcount]; split <;> omega)
    refine ⟨?_, ?_, ?_⟩
    · rw [State.localTicks, hnow, hphase, localTickEvent_now]
      omega
    · rw [State.localTicks, hp, hphase]
      omega
    · rw [State.localTicks, hc, hcount]
      split <;> omega

/-- R1: the ticks of a lag leave the link delay and the echo measurement. -/
theorem localTicks_echo (s : State) (b : Bool) (n : Nat) :
    (s.localTicks b n).tb.linkDelay = s.tb.linkDelay ∧ (s.localTicks b n).tb.sampleTaken = s.tb.sampleTaken ∧
      (s.localTicks b n).tb.echo = s.tb.echo ∧ (s.localTicks b n).tb.echoTag = s.tb.echoTag ∧
      (s.localTicks b n).tb.echoPeriod = s.tb.echoPeriod := by
  induction n generalizing s with
  | zero => exact ⟨rfl, rfl, rfl, rfl, rfl⟩
  | succ n ih =>
    rw [State.localTicks]
    have htick : ∀ tb : Timebase, tb.tick.linkDelay = tb.linkDelay ∧ tb.tick.sampleTaken = tb.sampleTaken ∧
        tb.tick.echo = tb.echo ∧ tb.tick.echoTag = tb.echoTag ∧ tb.tick.echoPeriod = tb.echoPeriod := fun tb => by
      unfold Timebase.tick
      dsimp only
      split <;> exact ⟨rfl, rfl, rfl, rfl, rfl⟩
    have := htick (s.elapse (1000 - s.tb.phase)).tb
    rw [← localTickEvent_tb s b] at this
    simpa [this] using ih (s.localTickEvent b)

/-- R12: a lag passes. -/
theorem passLag_clock {s : State} (hh : s.held = false) (hslew : s.tb.slewCount < 50) (lag : Nat) (b : Bool) :
    (s.passLag lag b).now = s.now + lag ∧
      (s.passLag lag b).tb.slewCount = (s.tb.slewCount + (s.tb.phase + lag) / 1000) % 50 := by
  obtain ⟨hnow, -, hcount⟩ := localTicks_clock hh hslew b ((s.tb.phase + lag) / 1000)
  refine ⟨?_, by simp [State.passLag, hcount]⟩
  rw [State.passLag, State.elapse_now, hnow]
  omega

theorem passLag_echo (s : State) (lag : Nat) (b : Bool) :
    (s.passLag lag b).tb.linkDelay = s.tb.linkDelay ∧ (s.passLag lag b).tb.sampleTaken = s.tb.sampleTaken ∧
      (s.passLag lag b).tb.echo = s.tb.echo ∧ (s.passLag lag b).tb.echoTag = s.tb.echoTag ∧
      (s.passLag lag b).tb.echoPeriod = s.tb.echoPeriod := by
  simpa [State.passLag] using localTicks_echo s b _

/-- R12: a step, before its events: campus time is the estimate carried forward, written into the backup time counter. -/
def State.stepped (s : State) (f : TimeFields) (est : Nat × Word16) (lag : Nat) (b : Bool) : State :=
  let u := s.passLag lag b
  let new := carryForward est lag
  (({ u with tb := { u.tb with
      day := new.2, ms := new.1 / 1000, phase := new.1 % 1000, slew := 0, epoch := some f.epoch,
      timeoutEnd := some (s.now + 5000000) } } : State).setQuality .synced |>.count .timeSteps).writeBackup

/-- R6, R12: the events of a step. -/
theorem takeStep_eq (s : State) (f : TimeFields) (est : Nat × Word16) (e : Int) (lag : Nat) (b : Bool) :
    ∃ args, s.takeStep f est e lag b =
      (if (s.passLag lag b).tb.quality = .invalid then (s.stepped f est lag b).startEvent
       else (s.stepped f est lag b).stepEvent b
        ⟨(s.passLag lag b).tb.day, (s.passLag lag b).tb.ms, (carryForward est lag).2, (carryForward est lag).1 / 1000,
          stepForward (s.passLag lag b).tb.day (s.passLag lag b).tb.ms (carryForward est lag).2
            ((carryForward est lag).1 / 1000),
          (s.passLag lag b).tb.quality⟩).raise .time 2 args :=
  ⟨_, rfl⟩

theorem stepped_tb (s : State) (f : TimeFields) (est : Nat × Word16) (lag : Nat) (b : Bool) :
    (s.stepped f est lag b).tb = { (s.passLag lag b).tb with
      day := (carryForward est lag).2, ms := (carryForward est lag).1 / 1000, phase := (carryForward est lag).1 % 1000,
      slew := 0, epoch := some f.epoch, timeoutEnd := some (s.now + 5000000), quality := .synced } := by
  simp [State.stepped]

theorem stepped_rs (s : State) (f : TimeFields) (est : Nat × Word16) (lag : Nat) (b : Bool) :
    (s.stepped f est lag b).rs.timeWritten = true ∧ (s.stepped f est lag b).rs.day = (carryForward est lag).2 ∧
      (s.stepped f est lag b).rs.second = (carryForward est lag).1 / 1000 / 1000 := by
  simp [State.stepped, State.writeBackup]

/-- R12: the events of a step leave the Timebase, the store and the local time. -/
theorem takeStep_parts (s : State) (f : TimeFields) (est : Nat × Word16) (e : Int) (lag : Nat) (b : Bool) :
    (s.takeStep f est e lag b).tb = (s.stepped f est lag b).tb ∧
      (s.takeStep f est e lag b).rs = (s.stepped f est lag b).rs ∧
      (s.takeStep f est e lag b).now = (s.passLag lag b).now := by
  have hnow : (s.stepped f est lag b).now = (s.passLag lag b).now := by simp [State.stepped]
  obtain ⟨args, he⟩ := takeStep_eq s f est e lag b
  rw [he]
  split <;> simp [hnow]

/-- R11: the condition of a step. -/
theorem steps_eq_true {s : State} {f : TimeFields} {e : Int}
    (h : s.tb.quality = .invalid ∨ s.tb.quality = .backup ∨ s.tb.epoch ≠ some f.epoch ∨ s.mu.node.stepThreshold ≤ e.natAbs) :
    s.steps f e = true := by
  obtain h | h | h | h := h <;> simp [State.steps, h]

/-- R8, R11: a frame that steps is taken in the state of its arrival. -/
theorem exec_time_steps {s : State} {dt : Nat} {h : Hdr} {payload : List Byte} {f : TimeFields} (hc : s.canHear .up)
    (hp : h.port = .up) (hf : timeFields payload = some f) (lag : Word32) (first : Bool)
    (hsteps : s.tb.quality = .invalid ∨ s.tb.quality = .backup ∨ s.tb.epoch ≠ some f.epoch ∨
      s.mu.node.stepThreshold ≤ ((s.arrived dt h).tb.offsetMs (f.estimate s.tb.linkDelay)).natAbs) :
    exec (.time dt h payload lag first) s =
      .next (((s.arrived dt h).takeStep f (f.estimate s.tb.linkDelay)
        ((s.arrived dt h).tb.offsetMs (f.estimate s.tb.linkDelay)) lag.toNat first).copyDown .downExpress
          (h.frame 0x01 payload) (BitVec.ofNat 32 (s.now + dt)) (.relayTime s.tb.linkDelay)) := by
  have hL : (s.arrived dt h).tb.linkDelay = s.tb.linkDelay := by simp
  have hv : (s.arrived dt h).steps f ((s.arrived dt h).tb.offsetMs (f.estimate s.tb.linkDelay)) = true :=
    steps_eq_true (by simpa using hsteps)
  rw [exec_time_accepted hc hp hf, State.acceptTime, hL, if_pos hv]

/-- Settles O21: the step's own acts, which its events leave. -/
theorem timeStepped : Obligations.TimeStepped := by
  intro s dt h payload lag first f hc hp hf v est new hslew hsteps
  have hvh : v.held = false := by simpa [v] using hc.1
  obtain ⟨hnow, hcount⟩ := passLag_clock hvh (by simpa [v] using hslew) lag.toNat first
  obtain ⟨h1, h2, h3, h4, h5⟩ := passLag_echo v lag.toNat first
  obtain ⟨htb, hrs, hlocal⟩ := takeStep_parts v f est (v.tb.offsetMs est) lag.toNat first
  obtain ⟨hwritten, hday, hsecond⟩ := stepped_rs v f est lag.toNat first
  have hvslew : v.tb.slewCount = s.tb.slewCount := by simp [v]
  have hvnow : v.now = s.now + dt := by simp [v]
  have hkeeps : v.keepsBut (v.takeStep f est (v.tb.offsetMs est) lag.toNat first)
      [.now, .line, .tb, .bs, .za, .cld, .csv, .fdc, .rs, .counters, .draws] := by
    intro p hp
    cases p <;> simp [State.samePart] at hp ⊢
  refine ⟨_, exec_time_steps hc hp hf lag first hsteps, ?_⟩
  change State.tb (State.copyDown (v.takeStep f est (v.tb.offsetMs est) lag.toNat first) _ _ _ _) = _ ∧ _
  rw [stepped_tb] at htb
  rw [← hrs] at hwritten hday hsecond
  rw [hnow, hvnow] at hlocal
  generalize v.takeStep f est (v.tb.offsetMs est) lag.toNat first = T at htb hwritten hday hsecond hlocal hkeeps ⊢
  have hus : T.tb.us = new.1 % 1000 := by
    have hlt : new.1 % 1000 < 1000 := Nat.mod_lt _ (by decide)
    rw [htb]
    refine (Timebase.us_running (by simp)).trans ?_
    show min 999 (new.1 % 1000) = _
    omega
  simp only [State.copyDown_keeps]
  refine ⟨?_, hus, hlocal, hwritten, hday, hsecond, ?_⟩
  · rw [htb]
    dsimp only
    rw [hcount, h1, h2, h3, h4, h5, hvnow, hvslew]
  · exact keepsBut_trans hkeeps (copyDown_keepsBut T _ _ _ _) (by simp)

end Sys2Proof.Machine

/-! PROOFS. The evaluation of clock lines (R122 to R126): what it leaves of the line itself, of the other lines and of the
configuration, and the evaluation of several lines by one event. -/

namespace Sys2Proof.Machine

/-! ## One line -/

@[simp] theorem settleScan_cld (s : State) : (settleScan s).cld = s.cld := by simp

theorem enterMode_clockLine_ne (s : State) {k l : LineNo} (h : l ≠ k) (m : ClockMode) (d : Nat) :
    (s.enterMode k m d).clockLine l = s.clockLine l := by
  unfold State.enterMode
  dsimp only
  rw [State.clockLine_setClockLine_ne _ _ h]
  (repeat' split) <;> simp [State.clockLine]

theorem startPulse_clockLine_ne (s : State) {k l : LineNo} (h : l ≠ k) : (s.startPulse k).clockLine l = s.clockLine l := by
  have hsettle : ∀ u : State, (settleScan u).clockLine l = u.clockLine l := fun u => by simp [State.clockLine]
  rw [State.startPulse, hsettle, State.clockLine_setClockLine_ne s _ h]

theorem pulseOrWait_clockLine_ne (s : State) {k l : LineNo} (h : l ≠ k) :
    (s.pulseOrWait k).clockLine l = s.clockLine l := by
  unfold State.pulseOrWait
  dsimp only
  split
  · split
    · rfl
    · exact startPulse_clockLine_ne s h
  · split
    · exact startPulse_clockLine_ne s h
    · split
      · exact startPulse_clockLine_ne s h
      · exact State.clockLine_setClockLine_ne s _ h

/-- R123: an evaluation concerns its own line. -/
theorem evaluate_clockLine_ne (s : State) {k l : LineNo} (h : l ≠ k) : (s.evaluate k).clockLine l = s.clockLine l := by
  unfold State.evaluate
  dsimp only
  split
  · rfl
  · split
    · rw [State.clockLine_setClockLine_ne _ _ h, enterMode_clockLine_ne s h]
    · split
      · rw [pulseOrWait_clockLine_ne _ h, enterMode_clockLine_ne s h]
      · rw [State.clockLine_setClockLine_ne _ _ h, enterMode_clockLine_ne s h]

/-- R122: a line with a pulse in flight is not evaluated. -/
theorem evaluate_of_pulse {s : State} {k : LineNo} (h : (s.clockLine k).pulse.isSome = true) : s.evaluate k = s := by
  rw [State.evaluate, if_pos h]

/-- R125: a pulse is started on a line, whose last pulse end, pending position and correction record stand. -/
theorem startPulse_clockLine_self (s : State) (k : LineNo) :
    ((s.startPulse k).clockLine k).lastEnd = (s.clockLine k).lastEnd ∧
      ((s.startPulse k).clockLine k).pending = (s.clockLine k).pending ∧
      ((s.startPulse k).clockLine k).correction = (s.clockLine k).correction := by
  simp [State.startPulse, State.clockLine, State.setClockLine]

theorem pulseOrWait_clockLine_self (s : State) (k : LineNo) :
    ((s.pulseOrWait k).clockLine k).lastEnd = (s.clockLine k).lastEnd ∧
      ((s.pulseOrWait k).clockLine k).pending = (s.clockLine k).pending ∧
      ((s.pulseOrWait k).clockLine k).correction = (s.clockLine k).correction := by
  unfold State.pulseOrWait
  dsimp only
  (repeat' split) <;> simp [startPulse_clockLine_self]

/-- R124: what no evaluation of a line changes of it. -/
theorem evaluate_clockLine_self (s : State) (k : LineNo) :
    ((s.evaluate k).clockLine k).lastEnd = (s.clockLine k).lastEnd ∧
      ((s.evaluate k).clockLine k).pending = (s.clockLine k).pending := by
  obtain ⟨c, hself, -⟩ := enterMode_clock s k .off 0
  obtain ⟨c', hself', -⟩ := enterMode_clock s k (s.evalMode k).1 (s.evalMode k).2
  unfold State.evaluate
  dsimp only
  (repeat' split) <;> simp [hself, hself', pulseOrWait_clockLine_self]

/-- R135: a correction record that an event of a line begins is one of count 0. -/
theorem enterMode_correction {s : State} {k : LineNo} (h : (s.clockLine k).correction = none ∨ (s.clockLine k).correction = some 0)
    (m : ClockMode) (d : Nat) :
    ((s.enterMode k m d).clockLine k).correction = none ∨ ((s.enterMode k m d).clockLine k).correction = some 0 := by
  unfold State.enterMode
  dsimp only
  rw [State.clockLine_setClockLine_self]
  dsimp only
  have hkept : ∀ u : State, u.cld = s.cld → u.clockLine k = s.clockLine k := fun u hu => by simp [State.clockLine, hu]
  split
  · exact .inr rfl
  · split
    · exact .inl rfl
    · rw [hkept _ (by (repeat' split) <;> simp)]
      exact h

theorem evaluate_correction {s : State} {k : LineNo} (h : (s.clockLine k).correction = none ∨ (s.clockLine k).correction = some 0) :
    ((s.evaluate k).clockLine k).correction = none ∨ ((s.evaluate k).clockLine k).correction = some 0 := by
  unfold State.evaluate
  dsimp only
  split
  · exact h
  · split
    · rw [State.clockLine_setClockLine_self]
      exact enterMode_correction h _ _
    · split
      · rw [(pulseOrWait_clockLine_self _ k).2.2]
        exact enterMode_correction h _ _
      · rw [State.clockLine_setClockLine_self]
        exact enterMode_correction h _ _

@[simp] theorem enterMode_cfg (s : State) (k : LineNo) (m : ClockMode) (d : Nat) : (s.enterMode k m d).cld.cfg = s.cld.cfg := by
  obtain ⟨-, -, h, -⟩ := enterMode_clock s k m d
  exact h

@[simp] theorem setClockLine_cfg (s : State) (k : LineNo) (v : ClockLine) : (s.setClockLine k v).cld.cfg = s.cld.cfg := rfl

@[simp] theorem startPulse_cfg (s : State) (k : LineNo) : (s.startPulse k).cld.cfg = s.cld.cfg := by
  simp [State.startPulse]

@[simp] theorem pulseOrWait_cfg (s : State) (k : LineNo) : (s.pulseOrWait k).cld.cfg = s.cld.cfg := by
  unfold State.pulseOrWait
  dsimp only
  (repeat' split) <;> simp

@[simp] theorem evaluate_cfg (s : State) (k : LineNo) : (s.evaluate k).cld.cfg = s.cld.cfg := by
  unfold State.evaluate
  dsimp only
  (repeat' split) <;> simp

/-! ## Several lines -/

/-- What an evaluation of line k reads of its blocks stands in t as in s. -/
def State.sameReads (s t : State) (k : LineNo) : Prop :=
  t.clockLine k = s.clockLine k ∧ t.clockCfg k = s.clockCfg k ∧ t.retained k = s.retained k ∧
    t.circ (circuitOfLine k) = s.circ (circuitOfLine k) ∧ t.supCfg (circuitOfLine k) = s.supCfg (circuitOfLine k)

/-- What an evaluation of line k reads stands in t as in s. -/
def State.sameForLine (s t : State) (k : LineNo) : Prop := s.sameReads t k ∧ t.tb = s.tb ∧ t.now = s.now

theorem sameReads_of_parts {s t : State} (hcld : t.cld = s.cld) (hrs : ∀ k, t.retained k = s.retained k)
    (hrecords : t.csv.records = s.csv.records) (hcfg : t.csv.cfg = s.csv.cfg) (k : LineNo) : s.sameReads t k :=
  ⟨by rw [State.clockLine, hcld, State.clockLine], by rw [State.clockCfg, hcld, State.clockCfg], hrs k,
    by rw [State.circ, hrecords, State.circ], by rw [State.supCfg, hcfg, State.supCfg]⟩

theorem State.sameReads.trans {s t u : State} {k : LineNo} (h : s.sameReads t k) (h' : t.sameReads u k) : s.sameReads u k := by
  obtain ⟨h1, h2, h3, h4, h5⟩ := h
  obtain ⟨h1', h2', h3', h4', h5'⟩ := h'
  exact ⟨h1'.trans h1, h2'.trans h2, h3'.trans h3, h4'.trans h4, h5'.trans h5⟩

theorem State.sameForLine.refl (s : State) (k : LineNo) : s.sameForLine s k := ⟨⟨rfl, rfl, rfl, rfl, rfl⟩, rfl, rfl⟩

theorem State.sameForLine.trans {s t u : State} {k : LineNo} (h : s.sameForLine t k) (h' : t.sameForLine u k) :
    s.sameForLine u k := by
  obtain ⟨h1, h2, h3⟩ := h
  obtain ⟨h1', h2', h3'⟩ := h'
  exact ⟨h1.trans h1', h2'.trans h2, h3'.trans h3⟩

theorem sameForLine_evaluate (s : State) {k l : LineNo} (h : l ≠ k) : s.sameForLine (s.evaluate k) l := by
  refine ⟨⟨evaluate_clockLine_ne s h, ?_⟩, ?_⟩
  · simp [State.clockCfg, State.retained, State.circ, State.supCfg]
  · simp

/-- A line evaluated where what it reads stands as in s is evaluated as in s. -/
theorem evaluated_congr {s s' t t' : State} {k : LineNo} (hs : s.sameReads s' k) (ht : t'.clockLine k = t.clockLine k)
    {q : Quality} {ms now : Nat} (h : s'.evaluated t k q ms now) : s.evaluated t' k q ms now := by
  obtain ⟨hline, hcfg, hret, hcirc, hsup⟩ := hs
  have hpulse : s'.newPulse k now = s.newPulse k now := by
    unfold State.newPulse
    rw [hcfg, hret, hsup]
  unfold State.evaluated at h ⊢
  rw [hline, hcfg, hret, hcirc, hpulse] at h
  rw [ht]
  exact h

/-- Each line of a list that is taken line by line is taken in a state that stands, for it, as the first, and is not touched
by the others. -/
theorem foldl_line {g : State → LineNo → State} (hg : ∀ (s : State) (k l : LineNo), l ≠ k → s.sameForLine (g s k) l)
    {k : LineNo} : ∀ {ls : List LineNo}, ls.Nodup → ∀ s : State,
      (k ∉ ls → s.sameForLine (ls.foldl g s) k) ∧
      (k ∈ ls → ∃ u, s.sameForLine u k ∧ (ls.foldl g s).clockLine k = (g u k).clockLine k)
  | [], _, s => ⟨fun _ => .refl s k, fun h => by simp at h⟩
  | l :: ls, hnd, s => by
    obtain ⟨hl, hls⟩ := List.nodup_cons.mp hnd
    obtain ⟨hout, hin⟩ := foldl_line hg (k := k) hls (g s l)
    constructor
    · intro hk
      rw [List.mem_cons, not_or] at hk
      exact (hg s l k hk.1).trans (hout hk.2)
    · intro hk
      by_cases hkl : k = l
      · subst hkl
        exact ⟨s, State.sameForLine.refl _ k, (hout hl).1.1⟩
      · obtain ⟨u, hu, hline⟩ := hin ((List.mem_cons.mp hk).resolve_left hkl)
        exact ⟨u, (hg s l k hkl).trans hu, hline⟩

theorem allLines_nodup : allLines.Nodup := List.nodup_finRange 8

theorem mem_allLines (k : LineNo) : k ∈ allLines := List.mem_finRange k

end Sys2Proof.Machine

/-! PROOFS. The line reset (R192) and the events that take it: the end of its reply, a full UP normal, and the loss of UP. -/

namespace Sys2Proof.Machine

/-! ## The scan's counters (R142, R143) -/

theorem counter_setScan (s : State) (v : Scan) (c : Counter) : (s.setScan v).counter c = s.counter c := rfl

theorem counter_visit {c : Counter} (h : c ≠ .skipped) (last : Circuit) (ds : List Circuit) (s : State) :
    (visit last ds s).counter c = s.counter c := by
  induction ds generalizing s last with
  | nil =>
    rw [visit, counter_setScan]
    exact counter_countN_of_ne s _ h
  | cons d ds ih =>
    rw [visit]
    split
    · rw [ih, counter_count_of_ne s h]
    · rfl

theorem counter_scanNext {c : Counter} (h : c ≠ .skipped) (s : State) (from_ : Circuit) :
    (s.scanNext from_).counter c = s.counter c := by
  unfold State.scanNext
  split
  · rfl
  · exact counter_visit h _ _ s

/-- R143: of the counters the driven reports can move SKIPPED and READING_DISCARDED. -/
theorem counter_settleScan {c : Counter} (hs : c ≠ .skipped) (hd : c ≠ .readingDiscarded) (s : State) :
    (settleScan s).counter c = s.counter c := by
  unfold settleScan
  split
  · rfl
  · split
    · rw [counter_scanNext hs, counter_count_of_ne s hd]
    · rfl
  · split
    · rfl
    · rw [counter_scanNext hs]

/-! ## Notices on the way (R184) -/

/-- t is reached from s by at most n notices: the line but for them stands, and where UP normal holds them all, so do the
counters but those of the scan. -/
def State.notifies (s t : State) (n : Nat) : Prop :=
  ∃ more : List QItem, more.length ≤ n ∧
    t.line = { s.line with up := { s.line.up with normal := s.line.up.normal ++ more } } ∧
    (s.line.up.normal.length + n ≤ 32 → ∀ c : Counter, c ≠ .skipped → c ≠ .readingDiscarded → t.counter c = s.counter c)

namespace State.notifies

variable {s t u : State} {n m : Nat}

theorem of_line (hline : t.line = s.line)
    (hcount : ∀ c : Counter, c ≠ .skipped → c ≠ .readingDiscarded → t.counter c = s.counter c) : s.notifies t 0 :=
  ⟨[], le_rfl, by rw [hline, List.append_nil], fun _ => hcount⟩

theorem trans (h : s.notifies t n) (h' : t.notifies u m) : s.notifies u (n + m) := by
  obtain ⟨l, hl, hline, hcount⟩ := h
  obtain ⟨l', hl', hline', hcount'⟩ := h'
  refine ⟨l ++ l', by simp; omega, by rw [hline', hline]; simp, fun hroom c hs hd => ?_⟩
  have hlen : t.line.up.normal.length = s.line.up.normal.length + l.length := by rw [hline]; simp
  rw [hcount' (by omega) c hs hd, hcount (by omega) c hs hd]

theorem mono (h : s.notifies t n) (hnm : n ≤ m) : s.notifies t m := by
  obtain ⟨l, hl, hline, hcount⟩ := h
  exact ⟨l, hl.trans hnm, hline, fun hroom => hcount (by omega)⟩

theorem raise (s : State) (c : NoticeClass) (k : Nat) (a : List Byte) : s.notifies (s.raise c k a) 1 := by
  obtain ⟨-, h⟩ | ⟨-, -, h⟩ | ⟨-, hfull, h⟩ := raise_cases s c k a
  · rw [h]
    exact (of_line rfl fun _ _ _ => rfl).mono (Nat.zero_le 1)
  · rw [h]
    exact ⟨[_], le_rfl, rfl, fun _ c _ _ => State.counter_setQueue s .upNormal _ c⟩
  · refine ⟨[], Nat.zero_le _, by rw [h]; simp, fun hroom => ?_⟩
    have : ¬ s.line.up.normal.length < 32 := of_decide_eq_false hfull
    omega

theorem ite {p : Prop} [Decidable p] (ht : s.notifies t n) (hu : s.notifies u n) : s.notifies (if p then t else u) n := by
  split <;> assumption

theorem refl (s : State) : s.notifies s n := (of_line rfl fun _ _ _ => rfl).mono (Nat.zero_le n)

theorem setClockLine (s : State) (k : LineNo) (v : ClockLine) : s.notifies (s.setClockLine k v) 0 :=
  of_line rfl fun _ _ _ => rfl

theorem startPulse (s : State) (k : LineNo) : s.notifies (s.startPulse k) 0 :=
  of_line (by simp [State.startPulse]) fun _ hs hd => counter_settleScan hs hd _

theorem pulseOrWait (s : State) (k : LineNo) : s.notifies (s.pulseOrWait k) 0 := by
  unfold State.pulseOrWait
  dsimp only
  split
  · exact ite (refl s) (startPulse s k)
  · split
    · exact startPulse s k
    · exact ite (startPulse s k) (setClockLine s k _)

/-- R135: the entry to a mode raises at most three notices. -/
theorem enterMode (s : State) (k : LineNo) (m : ClockMode) (d : Nat) : s.notifies (s.enterMode k m d) 3 := by
  have hmatch : ∀ (u : State) (x : Option Nat) (a : Nat → List Byte),
      u.notifies (match x, m with | some n, .inStep => u.raise .clock 3 (a n) | _, _ => u) 1 := fun u x a => by
    split
    · exact raise u _ _ _
    · exact refl u
  unfold State.enterMode
  dsimp only
  refine trans (n := 3) (m := 0) ?_ (setClockLine _ k _)
  exact ((ite (raise s _ _ _) (refl s)).trans (ite (raise _ _ _ _) (refl _))).trans (hmatch _ _ fun n =>
    enc8 k.val ++ enc16 (corrCode n) ++ enc16 (posCode (s.retained k).position))

theorem evaluate (s : State) (k : LineNo) : s.notifies (s.evaluate k) 3 := by
  unfold State.evaluate
  dsimp only
  exact ite (refl s) (ite ((enterMode s k _ _).trans (setClockLine _ k _))
    (ite ((enterMode s k _ _).trans (pulseOrWait _ k)) ((enterMode s k _ _).trans (setClockLine _ k _))))

theorem foldl_evaluate (ls : List LineNo) (s : State) : s.notifies (ls.foldl State.evaluate s) (3 * ls.length) := by
  induction ls generalizing s with
  | nil => exact refl s
  | cons k ls ih => exact ((evaluate s k).trans (ih _)).mono (by simp; omega)

theorem setQuality (s : State) (q : Quality) : s.notifies (s.setQuality q) 1 := by
  unfold State.setQuality
  split
  · exact refl s
  · exact trans (n := 0) (m := 1) (of_line rfl fun _ _ _ => rfl) (raise _ _ _ _)

end State.notifies

/-! ## The line reset (R192) -/

/-- The line reset, its values and START behind it, before its other notices. -/
def State.lineResetStarted (s : State) : State := s.lineResetValues.raise .mgmt 1 (enc8 1)

/-- The line reset before the evaluations of the clock lines. -/
def State.lineResetScanned (s : State) : State :=
  let t := if s.lineResetStarted.tb.quality = .synced then s.lineResetStarted.setQuality .holdover else s.lineResetStarted
  State.scanFromLowest (match s.fdc.drill with
    | some d => t.raise .drill 4 (s.drillEndedArgs d .abortedReset)
    | none => t)

theorem lineReset_eq (s : State) : s.lineReset = allLines.foldl State.evaluate s.lineResetScanned := rfl

theorem lineResetScanned_notifies (s : State) : s.lineResetStarted.notifies s.lineResetScanned 2 := by
  have hdrill : ∀ (u : State) (x : Option Drill), u.notifies (match x with
      | some d => u.raise .drill 4 (s.drillEndedArgs d .abortedReset)
      | none => u) 1 := fun u x => by
    split
    · exact .raise u _ _ _
    · exact .refl u
  unfold State.lineResetScanned
  dsimp only
  exact ((State.notifies.ite (.setQuality _ _) (.refl _)).trans (hdrill _ _)).trans
    (.of_line (by simp) fun _ hs _ => counter_scanNext hs _ _)

theorem lineReset_notifies (s : State) : s.lineResetStarted.notifies s.lineReset 26 :=
  (lineResetScanned_notifies s).trans (.foldl_evaluate allLines _)

/-- R192: before the evaluations every block stands as its chapter says. -/
theorem lineResetScanned_parts (s : State) :
    s.lineResetScanned.zm = { s.zm with sel := Vector.replicate 24 false } ∧
    s.lineResetScanned.bs = { s.bs with pendingSwap := false } ∧
    s.lineResetScanned.za = { s.za with outputs := Vector.replicate 24 .reset } ∧
    s.lineResetScanned.pe = { s.pe with calls := Vector.replicate 8 none } ∧
    s.lineResetScanned.cld = { s.cld with lines := s.cld.lines.map ClockLine.afterLineReset } ∧
    s.lineResetScanned.csv.records = Vector.replicate 32 .fresh ∧ s.lineResetScanned.csv.cfg = s.csv.cfg ∧
    s.lineResetScanned.fdc = s.fdc.afterLineReset ∧ s.lineResetScanned.image = s.image := by
  unfold State.lineResetScanned State.lineResetStarted
  dsimp only
  (repeat' split) <;> simp [State.lineResetValues]

theorem lineReset_parts (s : State) :
    s.lineReset.zm = { s.zm with sel := Vector.replicate 24 false } ∧
    s.lineReset.bs = { s.bs with pendingSwap := false } ∧
    s.lineReset.za = { s.za with outputs := Vector.replicate 24 .reset } ∧
    s.lineReset.pe = { s.pe with calls := Vector.replicate 8 none } ∧ s.lineReset.cld.cfg = s.cld.cfg ∧
    s.lineReset.csv.records = Vector.replicate 32 .fresh ∧ s.lineReset.csv.cfg = s.csv.cfg ∧
    s.lineReset.fdc = s.fdc.afterLineReset ∧ s.lineReset.image = s.image := by
  obtain ⟨hzm, hbs, hza, hpe, hcld, hrecords, hcfg, hfdc, himage⟩ := lineResetScanned_parts s
  rw [lineReset_eq]
  refine ⟨?_, ?_, ?_, ?_, ?_, ?_, ?_, ?_, ?_⟩
  · rw [foldl_part State.zm (by simp), hzm]
  · rw [foldl_part State.bs (by simp), hbs]
  · rw [foldl_part State.za (by simp), hza]
  · rw [foldl_part State.pe (by simp), hpe]
  · rw [foldl_part (fun s => s.cld.cfg) (by simp), hcld]
  · rw [foldl_part (fun s => s.csv.records) (by simp), hrecords]
  · rw [foldl_part (fun s => s.csv.cfg) (by simp), hcfg]
  · rw [foldl_part State.fdc (by simp), hfdc]
  · rw [foldl_part State.image (by simp), himage]

/-- R138: a clock line after a line reset. -/
theorem lineReset_clockLine (s : State) (k : LineNo) :
    (s.lineReset.clockLine k).lastEnd = (s.clockLine k).lastEnd ∧
    (s.lineReset.clockLine k).pending = (s.clockLine k).pending ∧
    ((s.clockLine k).pulse.isSome = true → s.lineReset.clockLine k = { s.clockLine k with correction := none }) ∧
    ((s.lineReset.clockLine k).correction = none ∨ (s.lineReset.clockLine k).correction = some 0) := by
  obtain ⟨-, -, -, -, hcld, -⟩ := lineResetScanned_parts s
  have hscanned : s.lineResetScanned.clockLine k = { s.clockLine k with correction := none } := by
    simp [State.clockLine, hcld, ClockLine.afterLineReset]
  obtain ⟨u, hu, hfold⟩ := (foldl_line (g := State.evaluate) (fun s k l h => sameForLine_evaluate s h) (k := k)
    allLines_nodup s.lineResetScanned).2 (mem_allLines k)
  have huk : u.clockLine k = { s.clockLine k with correction := none } := hu.1.1.trans hscanned
  obtain ⟨hlast, hpending⟩ := evaluate_clockLine_self u k
  rw [lineReset_eq, hfold]
  refine ⟨by rw [hlast, huk], by rw [hpending, huk], fun hp => ?_, evaluate_correction (.inl (by rw [huk]))⟩
  rw [evaluate_of_pulse (by rw [huk]; exact hp), huk]

/-- R192: the line reset leaves what its chapters say. -/
theorem lineReset_after (s : State) : s.afterLineReset s.lineReset := by
  obtain ⟨hzm, hbs, hza, hpe, hclocks, hrecords, hcfg, hfdc, himage⟩ := lineReset_parts s
  obtain ⟨more, -, hline, -⟩ := lineReset_notifies s
  obtain ⟨-, -, -, hcount⟩ := (State.notifies.raise s.lineResetValues .mgmt 1 (enc8 1)).trans (lineReset_notifies s)
  have hstarted := raise_line s.lineResetValues .mgmt 1 (enc8 1)
  rw [← State.lineResetStarted] at hstarted
  rw [hstarted] at hline
  refine ⟨by simp, by simp, by simp, lineReset_mu s, by rw [hline]; rfl, by rw [hline]; rfl, by rw [hline]; rfl,
    fun hen => ?_, fun p => by cases p <;> simp [State.port, hline, State.lineResetValues, Port.flushed], by rw [hline]; rfl,
    lineReset_tb s, hzm, hbs, fun o => by simp [State.out, hza], by rw [hza], fun r => by simp [State.call, hpe],
    fun c => by simp [State.circ, hrecords], hcfg, hfdc, lineReset_rs s, himage, hclocks, lineReset_clockLine s, ?_⟩
  · have hstart := raise_noticed (s := s.lineResetValues) (c := .mgmt) hen rfl 1 (enc8 1)
    rw [State.noticed, noticePayload_congr (s := s) (t := s.lineResetValues) rfl rfl rfl rfl, ← State.lineResetStarted] at hstart
    refine ⟨more, ?_⟩
    rw [hline]
    dsimp only
    rw [hstart]
    rfl
  · intro c hs hd
    rw [hcount (by simp [State.lineResetValues, Port.flushed]) c hs hd]
    simp [State.counter, State.lineResetValues]

/-- R38, R192: the end of a transmission that is not the reply of a LINE_RESET, and of one that is. -/
theorem live_transmissionEnds {s : State} (hh : s.held = false) {x : Transmission} {dt : Nat} (htx : s.line.up.tx = some x)
    (hends : x.ends ≤ s.now + dt) (ho : x.origin = .resetReply) :
    live dt (fun t => t.transmissionEnds .up) s =
      ((s.elapse dt).setPort .up { s.line.up with tx := none, lastTxEnd := some (s.now + dt) }).lineReset := by
  rw [live_running hh, State.transmissionEnds, port_elapse, show (s.port .up).tx = some x from htx]
  simp [hends, ho, State.port]

/-- R192: a LINE_RESET whose reply finds UP normal full is taken at once. -/
theorem askLineReset_of_full {s : State} (hsave : s.mu.save = none) (hfull : s.hasRoom .upNormal = false) (tag : Byte) :
    s.askLineReset tag = ((({ s with mu := { s.mu with resetPending := true } } : State).count .unFull).count
      .repliesLost).lineReset := by
  have hroom : ({ s with mu := { s.mu with resetPending := true } } : State).hasRoom .upNormal = false := hfull
  obtain ⟨hr, -⟩ | ⟨-, hjoin⟩ := joinOwn_cases { s with mu := { s.mu with resetPending := true } }
    (replyFrame tag 11 .ok []) .resetReply .repliesLost
  · rw [hroom] at hr
    cases hr
  · unfold State.askLineReset
    dsimp only
    rw [if_neg (by simp [hsave]), hjoin, if_neg (by simp [hfull])]

/-- What a line reset leaves is said by the parts of the state in which it is taken that it reads. -/
theorem afterLineReset_congr {v w t : State} (hclock : w.now = v.now ∧ w.held = v.held ∧ w.mainPower = v.mainPower)
    (hmu : ∃ b, w.mu = { v.mu with resetPending := b })
    (hline : (∀ p, (w.port p).link = (v.port p).link ∧ (w.port p).rx = (v.port p).rx ∧ (w.port p).tx = (v.port p).tx) ∧
      w.line.hop = v.line.hop)
    (htb : ∃ e, w.tb = { v.tb with echo := e })
    (hblocks : w.zm = v.zm ∧ w.bs = v.bs ∧ w.za.tones = v.za.tones ∧ w.csv.cfg = v.csv.cfg ∧ w.fdc = v.fdc ∧ w.rs = v.rs ∧
      w.image = v.image ∧ w.cld = v.cld) (h : w.afterLineReset t) : v.afterLineReset t := by
  obtain ⟨hnow, hheld, hpower⟩ := hclock
  obtain ⟨hports, hhop⟩ := hline
  obtain ⟨hzm, hbs, htones, hcfg, hfdc, hrs, himage, hcld⟩ := hblocks
  have hclocks : ∀ k, w.clockLine k = v.clockLine k := fun k => by simp [State.clockLine, hcld]
  obtain ⟨b, hmu⟩ := hmu
  obtain ⟨e, htb⟩ := htb
  have hpayload : w.noticePayload .mgmt 1 [1] = v.noticePayload .mgmt 1 [1] :=
    noticePayload_congr (by rw [hmu]) (by rw [htb]) (by rw [htb]) (by rw [htb]) .mgmt 1 [1]
  unfold State.afterLineReset at h ⊢
  simp only [hnow, hheld, hpower, hpayload, hports, hhop, hzm, hbs, htones, hcfg, hfdc, hrs, himage, hcld, hclocks] at h
  rw [hmu, htb] at h
  exact h

end Sys2Proof.Machine

/-! PROOFS. The statements on the line reset and on the loss of a link (R24, R192). -/

namespace Sys2Proof.Machine

theorem exec_lineReset (dt : Nat) (h : Hdr) (s : State) : exec (.lineReset dt ⟨h, false⟩) s =
    .next (live dt (State.request h [11] fun u => u.takeRequest h.tag 11 (State.askLineReset h.tag)) s) := rfl

/-- R32: a copy joins DOWN normal, which has room, while DOWN is ACTIVE. -/
theorem copyDown_normal_of_active {s : State} (hl : s.line.down.link = .active) (hr : s.line.down.normal.length < 16)
    (f : Frame) (w : Word32) (g : Origin) :
    s.copyDown .downNormal f w g = s.setQueue .downNormal (s.line.down.normal ++ [⟨f, some w, g⟩]) := by
  rw [State.copyDown, joinDown_of_active hl]
  exact join_of_room (q := .downNormal) hr _

theorem copyDown_of_not_active {s : State} (hl : s.line.down.link ≠ .active) (q : QueueId) (f : Frame) (w : Word32)
    (g : Origin) : s.copyDown q f w g = s := joinDown_of_not_active hl q _

/-- R192: what the line reset leaves does not rest on what was counted before it, nor on reset pending. -/
theorem afterLineReset_of_counted {v w : State} (h : ∃ b k, w = { v with
    mu := { v.mu with resetPending := b }, counters := k }) : v.afterLineReset w.lineReset := by
  obtain ⟨b, k, rfl⟩ := h
  exact afterLineReset_congr (v := v) (w := { v with mu := { v.mu with resetPending := b }, counters := k }) ⟨rfl, rfl, rfl⟩ ⟨b, rfl⟩ ⟨fun p => by cases p <;> exact ⟨rfl, rfl, rfl⟩, rfl⟩ ⟨v.tb.echo, rfl⟩
    ⟨rfl, rfl, rfl, rfl, rfl, rfl, rfl, rfl⟩ (lineReset_after _)

/-- R192: a LINE_RESET whose reply is dropped leaves what the line reset leaves. -/
theorem takeLineReset_of_full {v : State} (hreset : v.mu.resetPending = false) (hsave : v.mu.save = none)
    (hfull : v.hasRoom .upNormal = false) (tag : Byte) :
    v.afterLineReset (v.takeRequest tag 11 (State.askLineReset tag)) := by
  rw [takeRequest_of_no_reset hreset, askLineReset_of_full (s := v.count .mgmtRequests) (by simpa using hsave) hfull]
  exact afterLineReset_of_counted ⟨true, _, rfl⟩

/-- Settles O17: at the reply's end, and at the full queue, where the copy comes behind the reset. -/
theorem lineResetTaken : Obligations.LineResetTaken := by
  intro s dt hh
  constructor
  · intro x htx hends ho
    refine ⟨_, congrArg Host.Outcome.next (live_transmissionEnds hh htx hends ho), ?_⟩
    exact lineReset_after _
  · intro h hc hp hsel hreset hsave hfull v copied
    have hafter := takeLineReset_of_full (v := v) (by simpa [v] using hreset) (by simpa [v] using hsave) hfull h.tag
    have hlocal : v.localCount = BitVec.ofNat 32 (s.now + dt) := arrived_localCount s dt h
    have hdown : v.line.down = s.line.down := arrived_up_line_down hp s dt
    have hrun : exec (.lineReset dt ⟨h, false⟩) s = .next
        (if v.consumes h then v.takeRequest h.tag 11 (State.askLineReset h.tag)
         else (v.takeRequest h.tag 11 (State.askLineReset h.tag)).copyDown .downNormal (h.frame 0x08 [11]) v.localCount
           .relayDown) := by rw [exec_lineReset, live_running hc.1, request_selected hc hp hsel]
    generalize v.takeRequest h.tag 11 (State.askLineReset h.tag) = u at hafter hrun
    have ⟨_, _, _, _, _, _, hempty, _, hports, _⟩ := hafter
    have hlink : u.line.down.link = s.line.down.link := (hports .down).1.trans (congrArg Port.link hdown)
    refine ⟨_, u, hrun, hafter, fun hn => ?_, fun hy => ?_⟩
    · split
      · rfl
      · next hstop => exact copyDown_of_not_active (fun hl => hn ⟨by simpa using hstop, hlink ▸ hl⟩) _ _ _ _
    · rw [if_neg (by simp [hy.1]), copyDown_normal_of_active (hlink.trans hy.2) (by simp [hempty]), hempty, hlocal]
      rfl


/-! ## The loss of a link (R24) -/

/-- R24: the port is ABSENT with its queues and its reception empty, and what is lost is counted. -/
def State.portGone (s : State) (p : PortId) : State :=
  let t := (s.setPort p { (s.port p).flushed with link := .absent, rx := none }).count (lossCounter p)
  let t := if (s.port p).rx.isSome then t.count (abortedCounter p) else t
  t.countN (flushedCounter p) ((s.port p).express ++ (s.port p).normal).length

/-- R24: an ACTIVE port that loses its signal. -/
theorem signalLost_of_active {s : State} {p : PortId} (h : (s.port p).link = .active) :
    s.signalLost p = (s.portGone p).portLost ((s.port p).express ++ (s.port p).normal) p := if_pos h

theorem portGone_eq (s : State) (p : PortId) : ∃ k, s.portGone p =
    { s.setPort p { s.port p with link := .absent, rx := none, express := [], normal := [] } with counters := k } := by
  unfold State.portGone
  dsimp only
  split
  · exact ⟨_, rfl⟩
  · exact ⟨_, rfl⟩

/-- R24, R15: UP is gone, every call is closed, and there is no echo measurement. -/
def State.upGone (s : State) : State :=
  let t := (s.portGone .up).cutCalls
  { t with tb := { t.tb with echo := .idle, echoPeriod := none } }

/-- R192: the loss of UP that flushes the reply of a LINE_RESET takes the line reset. -/
theorem signalLost_up {s : State} (h : s.line.up.link = .active) :
    s.signalLost .up = if (s.line.up.express ++ s.line.up.normal).any (fun i => decide (i.origin = .resetReply))
      then s.upGone.lineReset else s.upGone := signalLost_of_active h

theorem signalLost_up_of_no_reply {s : State} (h : s.line.up.link = .active)
    (hno : ∀ i ∈ s.line.up.express ++ s.line.up.normal, i.origin ≠ .resetReply) : s.signalLost .up = s.upGone := by
  rw [signalLost_up h, if_neg]
  simpa [or_imp, forall_and] using hno

/-- R113: the calls cut are closed, and nothing but what their closing touches and the counters changes. -/
@[simp] theorem call_cutCalls (s : State) (r : Fin 8) : s.cutCalls.call r = none := by
  have hall : r ∈ allRecords.filter (fun r => (s.call r).isSome) ∨ s.call r = none := by
    cases hc : s.call r with
    | none => exact .inr rfl
    | some c => exact .inl (by simp [allRecords, hc])
  rw [State.cutCalls, call_countN, call_closeCalls]
  obtain h | h := hall
  · rw [if_pos h]
  · rw [h, ite_self]

@[simp] theorem cutCalls_tones (s : State) : s.cutCalls.za.tones = s.za.tones := by
  have hrelease : ∀ (rs : List (Fin 8)) (t : State), (rs.foldl State.releaseCall t).za.tones = t.za.tones := fun rs t =>
    foldl_part (fun s => s.za.tones) (fun t r => by simp [State.releaseCall]) rs t
  simp [State.cutCalls, State.closeCalls, hrelease]

@[simp] theorem cutCalls_cfg (s : State) : s.cutCalls.csv.cfg = s.csv.cfg := by
  have hrelease : ∀ (rs : List (Fin 8)) (t : State), (rs.foldl State.releaseCall t).csv.cfg = t.csv.cfg := fun rs t =>
    foldl_part (fun s => s.csv.cfg) (fun t r => by simp [State.releaseCall]) rs t
  simp [State.cutCalls, State.closeCalls, hrelease]

/-- R24, R15: what the loss of UP leaves. -/
theorem upGone_parts (s : State) :
    s.upGone.line = { s.line with
      up := { s.line.up with link := .absent, rx := none, express := [], normal := [] } } ∧
    s.upGone.tb = { s.tb with echo := .idle, echoPeriod := none } ∧ (∀ r, s.upGone.call r = none) ∧
    s.upGone.za.tones = s.za.tones ∧ s.upGone.csv.cfg = s.csv.cfg ∧
    s.keepsBut s.upGone [.line, .tb, .pe, .za, .csv, .counters, .draws] := by
  obtain ⟨k, hk⟩ := portGone_eq s .up
  unfold State.upGone
  rw [hk]
  refine ⟨by simp [State.cutCalls, State.setPort, State.port], by simp [State.cutCalls, State.setPort],
    fun r => call_cutCalls _ r, by simp [State.setPort], by simp [State.setPort], fun p hp => ?_⟩
  cases p <;> simp [State.samePart, State.cutCalls, State.setPort] at hp ⊢

theorem exec_lineSignalLost {s : State} (hh : s.held = false) (dt : Nat) (p : PortId) :
    exec (.lineSignalLost dt p) s = .next ((s.elapse dt).signalLost p) := congrArg Host.Outcome.next (live_running hh ..)

/-- R24: what the loss of DOWN counts: the loss, a frame under reception, and the frames flushed. -/
theorem counter_portGone_down (s : State) :
    (s.portGone .down).counter .downLoss = min 65535 (s.counter .downLoss + 1) ∧
    (s.portGone .down).counter .downAborted = (if s.line.down.rx.isSome then min 65535 (s.counter .downAborted + 1)
      else s.counter .downAborted) ∧
    (s.portGone .down).counter .downFlushed =
      min 65535 (s.counter .downFlushed + (s.line.down.express.length + s.line.down.normal.length)) ∧
    ∀ c, c ≠ .downLoss → c ≠ .downAborted → c ≠ .downFlushed → (s.portGone .down).counter c = s.counter c := by
  have hloss := State.counter_count_self (s.setPort .down { (s.port .down).flushed with link := .absent, rx := none }) .downLoss
  have hother : ∀ c, c ≠ .downLoss → ((s.setPort .down { (s.port .down).flushed with
      link := .absent, rx := none }).count .downLoss).counter c = s.counter c := fun c hc => by
    rw [counter_count_of_ne _ hc, State.counter_setPort]
  rw [State.counter_setPort] at hloss
  unfold State.portGone
  dsimp only [lossCounter, abortedCounter, flushedCounter]
  generalize (s.setPort .down { (s.port .down).flushed with link := .absent, rx := none }).count .downLoss = t at hloss hother
  have hflushed : ((s.port .down).express ++ (s.port .down).normal).length =
      s.line.down.express.length + s.line.down.normal.length := by simp [State.port]
  rw [show (s.port .down).rx = s.line.down.rx from rfl, hflushed]
  split
  · refine ⟨?_, ?_, ?_, fun c hl ha hf => ?_⟩
    · rw [counter_countN_of_ne _ _ (by simp), counter_count_of_ne _ (by simp), hloss]
    · rw [counter_countN_of_ne _ _ (by simp), State.counter_count_self, hother _ (by simp)]
    · rw [State.counter_countN_self, counter_count_of_ne _ (by simp), hother _ (by simp)]
    · rw [counter_countN_of_ne _ _ hf, counter_count_of_ne _ ha, hother _ hl]
  · refine ⟨?_, ?_, ?_, fun c hl ha hf => ?_⟩
    · rw [counter_countN_of_ne _ _ (by simp), hloss]
    · rw [counter_countN_of_ne _ _ (by simp), hother _ (by simp)]
    · rw [State.counter_countN_self, hother _ (by simp)]
    · rw [counter_countN_of_ne _ _ hf, hother _ hl]

/-- R184: a notice of a class that is not enabled, or that finds UP normal full, leaves UP normal. -/
theorem raise_normal_of_lost {s : State} {c : NoticeClass}
    (h : c.enabled s.mu.node.enables = false ∨ s.hasRoom .upNormal = false) (k : Nat) (a : List Byte) :
    (s.raise c k a).line.up.normal = s.line.up.normal := by
  obtain ⟨-, he⟩ | ⟨hen, hroom, -⟩ | ⟨-, -, he⟩ := raise_cases s c k a
  · rw [he]
  · rw [hen, hroom] at h
    simp at h
  · simp [he]

/-- R24: what the loss of DOWN leaves. -/
theorem downGone_parts {s : State} (h : s.line.down.link = .active) :
    ∃ u, s.signalLost .down = u.raise .line 3 (enc16 (s.line.down.express.length + s.line.down.normal.length)) ∧
      u = s.portGone .down ∧ ∃ k, u = { s with
        line := { s.line with down := { s.line.down with link := .absent, rx := none, express := [], normal := [] } }
        counters := k } := by
  obtain ⟨k, hk⟩ := portGone_eq s .down
  refine ⟨s.portGone .down, ?_, rfl, k, hk⟩
  rw [signalLost_of_active (p := .down) h, State.portLost, List.length_append]
  rfl

/-- R24: with no reply of a LINE_RESET waiting, the loss of UP leaves the port ABSENT and empty, and no call. -/
theorem upLost {s : State} (hh : s.held = false) (hl : s.line.up.link = .active) (dt : Nat)
    (hno : ∀ i ∈ s.line.up.express ++ s.line.up.normal, i.origin ≠ .resetReply) :
    exec (.lineSignalLost dt .up) s = .next (s.elapse dt).upGone := by
  rw [exec_lineSignalLost hh, signalLost_up_of_no_reply (by simpa using hl) (by simpa using hno)]

/-- R192: the state in which the loss of UP takes the line reset is, for what the line reset leaves, that of the lost port. -/
theorem afterLineReset_upGone (s : State) :
    ({ s with line := { s.line with up := { s.line.up with link := .absent, rx := none } },
              tb := { s.tb with echoPeriod := none } } : State).afterLineReset s.upGone.lineReset := by
  obtain ⟨hline, htb, -, htones, hcfg, hkeeps⟩ := upGone_parts s
  have hkept : ∀ p, p ∉ [.line, .tb, .pe, .za, .csv, .counters, .draws] → s.samePart s.upGone p := hkeeps
  exact afterLineReset_congr (w := s.upGone)
    ⟨hkept .now (by simp), hkept .held (by simp), hkept .mainPower (by simp)⟩
    ⟨s.mu.resetPending, hkept .mu (by simp)⟩
    ⟨fun p => by cases p <;> simp [State.port, hline], by rw [hline]⟩ ⟨.idle, htb⟩
    ⟨hkept .zm (by simp), hkept .bs (by simp), htones, hcfg, hkept .fdc (by simp), hkept .rs (by simp),
      hkept .image (by simp), hkept .cld (by simp)⟩ (lineReset_after _)

/-- Settles O7: for each port the loss leaves one state, and what follows it is the notice or the line reset. -/
theorem linkLost : Obligations.LinkLost := by
  intro s dt hh
  have hsame : (s.elapse dt).line = s.line := by simp
  refine ⟨fun hl hno => ?_, fun hl hreply => ?_, fun hl => ?_⟩
  · obtain ⟨hline, htb, hcalls, -, -, hkeeps⟩ := upGone_parts (s.elapse dt)
    rw [hsame] at hline
    exact ⟨_, upLost hh hl dt hno, by rw [hline], by rw [hline], by rw [hline], hcalls, htb, hkeeps⟩
  · refine ⟨(s.elapse dt).upGone.lineReset, ?_, ?_⟩
    · rw [exec_lineSignalLost hh, signalLost_up (by simpa using hl), if_pos]
      simpa [or_and_right, exists_or] using hreply
    · have := afterLineReset_upGone (s.elapse dt)
      rw [hsame] at this
      exact this
  · obtain ⟨u, hlost, hgone, k, hu⟩ := downGone_parts (s := s.elapse dt) (by simpa using hl)
    obtain ⟨hloss, haborted, hflushed, hothers⟩ := counter_portGone_down (s.elapse dt)
    rw [← hgone] at hloss haborted hflushed hothers
    rw [hsame] at hlost hu haborted hflushed
    have huline : u.line = { s.line with down :=
        { s.line.down with link := .absent, rx := none, express := [], normal := [] } } := by rw [hu]
    have humu : u.mu = s.mu := by rw [hu]; simp
    have hraise := raise_line u .line 3 (enc16 (s.line.down.express.length + s.line.down.normal.length))
    rw [huline] at hraise
    refine ⟨_, by rw [exec_lineSignalLost hh, hlost], by rw [hraise], by rw [hraise], by rw [hraise], fun hen hroom => ?_,
      fun hlostNotice => ?_, ?_, ?_, ?_, fun c hc => ?_, fun p hp => ?_⟩
    · exact noticed_of_raise (s := s.elapse dt) (cls := .line)
        (by rw [show (s.elapse dt).mu = s.mu by simp]; exact hen) (by simpa using hroom) (by simp [hu])
        (by simp [hu]) (by simp [hu]) (by simp [hu]) (by simp [hu]) 3 _
    · have hnone : NoticeClass.line.enabled u.mu.node.enables = false ∨ u.hasRoom .upNormal = false := by
        obtain hoff | hfull := hlostNotice
        · exact .inl (by rw [humu]; exact hoff)
        · exact .inr (by simpa [State.hasRoom, State.queue, huline, QueueId.capacity] using hfull)
      rw [raise_normal_of_lost hnone, huline]
    · rw [counter_raise_of_ne _ (by simp) (by simp), hloss]
    · rw [counter_raise_of_ne _ (by simp) (by simp), haborted]
    · rw [counter_raise_of_ne _ (by simp) (by simp), hflushed]
    · simp only [List.mem_cons, List.not_mem_nil, or_false, not_or] at hc
      obtain ⟨h1, h2, h3, h4, h5⟩ := hc
      rw [counter_raise_of_ne _ h4 h5, hothers c h1 h2 h3]
    · cases p <;> simp [State.samePart, hu] at hp ⊢

end Sys2Proof.Machine

/-! PROOFS. Requests (Chapter 10): what a taken request leaves, and the statements on the requests whose owner acts at once
(R91, R148, R176, R177, R179, R182, R188, R192). -/

namespace Sys2Proof.Machine

/-! ## What stays -/

namespace State.keepsBut

theorem refl (s : State) (parts : List Part) : s.keepsBut s parts := fun p _ => by cases p <;> exact rfl

theorem mono {s t : State} {parts more : List Part} (h : s.keepsBut t parts) (hsub : parts ⊆ more) : s.keepsBut t more :=
  fun p hp => h p fun hin => hp (hsub hin)

theorem append {s t u : State} {parts more : List Part} (h : s.keepsBut t parts) (h' : t.keepsBut u more) :
    s.keepsBut u (parts ++ more) :=
  keepsBut_trans (h.mono (List.subset_append_left _ _)) h' (List.subset_append_right _ _)

/-! What a part that stays gives of the readings of the state. -/

section Readings
variable {s t : State} {parts : List Part}

theorem circ (h : s.keepsBut t parts) (hp : Part.csv ∉ parts) (c : Circuit) : t.circ c = s.circ c := by
  rw [State.circ, show t.csv = s.csv from h .csv hp, State.circ]

theorem out (h : s.keepsBut t parts) (hp : Part.za ∉ parts) (o : Output) : t.out o = s.out o :=
  out_of_za (h .za hp) o

theorem call (h : s.keepsBut t parts) (hp : Part.pe ∉ parts) (r : Fin 8) : t.call r = s.call r := by
  rw [State.call, show t.pe = s.pe from h .pe hp, State.call]

theorem clockLine (h : s.keepsBut t parts) (hp : Part.cld ∉ parts) (k : LineNo) : t.clockLine k = s.clockLine k := by
  rw [State.clockLine, show t.cld = s.cld from h .cld hp, State.clockLine]

theorem retained (h : s.keepsBut t parts) (hp : Part.rs ∉ parts) (k : LineNo) : t.retained k = s.retained k := by
  rw [State.retained, show t.rs = s.rs from h .rs hp, State.retained]

end Readings

end State.keepsBut

/-! ## The readings that time, counting and the arrival of a frame leave -/

@[simp] theorem readings_elapse (s : State) (dt : Nat) :
    (∀ c, (s.elapse dt).circ c = s.circ c) ∧ (∀ r, (s.elapse dt).call r = s.call r) ∧
    (∀ k, (s.elapse dt).clockLine k = s.clockLine k) ∧ (∀ k, (s.elapse dt).clockCfg k = s.clockCfg k) ∧
    (∀ k, (s.elapse dt).retained k = s.retained k) ∧ (∀ c, (s.elapse dt).supCfg c = s.supCfg c) ∧
    ∀ o, (s.elapse dt).attr o = s.attr o := by
  simp [State.circ, State.call, State.clockLine, State.clockCfg, State.retained, State.supCfg, State.attr]

@[simp] theorem readings_arrived (s : State) (dt : Nat) (h : Hdr) :
    (∀ c, (s.arrived dt h).circ c = s.circ c) ∧ (∀ r, (s.arrived dt h).call r = s.call r) ∧
    (∀ k, (s.arrived dt h).clockLine k = s.clockLine k) ∧ (∀ k, (s.arrived dt h).clockCfg k = s.clockCfg k) ∧
    (∀ k, (s.arrived dt h).retained k = s.retained k) ∧ (∀ c, (s.arrived dt h).supCfg c = s.supCfg c) ∧
    ∀ o, (s.arrived dt h).attr o = s.attr o := by
  simp [State.circ, State.call, State.clockLine, State.clockCfg, State.retained, State.supCfg, State.attr]

@[simp] theorem readings_countN (s : State) (c : Counter) (n : Nat) :
    (∀ d, (s.countN c n).circ d = s.circ d) ∧ (∀ k, (s.countN c n).clockLine k = s.clockLine k) ∧
    (∀ k, (s.countN c n).clockCfg k = s.clockCfg k) ∧ (∀ k, (s.countN c n).retained k = s.retained k) ∧
    (∀ d, (s.countN c n).supCfg d = s.supCfg d) ∧ ∀ o, (s.countN c n).attr o = s.attr o := by
  simp [State.circ, State.clockLine, State.clockCfg, State.retained, State.supCfg, State.attr]

@[simp] theorem readings_count (s : State) (c : Counter) :
    (∀ d, (s.count c).circ d = s.circ d) ∧ (∀ k, (s.count c).clockLine k = s.clockLine k) ∧
    (∀ k, (s.count c).clockCfg k = s.clockCfg k) ∧ (∀ k, (s.count c).retained k = s.retained k) ∧
    (∀ d, (s.count c).supCfg d = s.supCfg d) ∧ (∀ r, (s.count c).call r = s.call r) ∧
    ∀ o, (s.count c).attr o = s.attr o := by
  simp [State.circ, State.clockLine, State.clockCfg, State.retained, State.supCfg, State.call, State.attr]

/-! ## A request received (R32, R33, R192) -/

/-- R32, R33: a request that matches leaves what its owner leaves, whether the frame is copied to DOWN or not. -/
theorem request_owner {s : State} {dt : Nat} {h : Hdr} (hc : s.canHear .up) (hp : h.port = .up)
    (hsel : (s.arrived dt h).selected h = true) (payload : List Byte) (owner : State → State) :
    ∃ t, live dt (State.request h payload owner) s = t ∧ t.line.up = (owner (s.arrived dt h)).line.up ∧
      (owner (s.arrived dt h)).keepsBut t [.line, .counters] := by
  refine ⟨_, rfl, ?_⟩
  rw [live_running hc.1, request_selected hc hp hsel]
  split
  · exact ⟨rfl, State.keepsBut.refl _ _⟩
  · exact ⟨copyDown_normal_line_up _ _ _ _, copyDown_keepsBut _ _ _ _ _⟩

/-- R176: a taken request leaves what its owner leaves of the state in which it is counted. -/
theorem request_acted {s : State} {dt : Nat} {h : Hdr} (ht : s.takesRequest dt h) (payload : List Byte) (req : Byte)
    (act : State → State) :
    ∃ t, live dt (State.request h payload fun u => u.takeRequest h.tag req act) s = t ∧
      t.line.up = (act ((s.arrived dt h).count .mgmtRequests)).line.up ∧
      (act ((s.arrived dt h).count .mgmtRequests)).keepsBut t [.line, .counters] := by
  obtain ⟨hhear, hport, hselected, hreset, -⟩ := ht
  obtain ⟨t, hrun, hup, hkeeps⟩ := request_owner hhear hport hselected payload fun u => u.takeRequest h.tag req act
  rw [takeRequest_of_no_reset (by simpa using hreset)] at hup hkeeps
  exact ⟨t, hrun, hup, hkeeps⟩

/-- R192: while reset pending is set a request is refused with BUSY. -/
theorem request_busy {s : State} {dt : Nat} {h : Hdr} (hc : s.canHear .up) (hp : h.port = .up)
    (hsel : (s.arrived dt h).selected h = true) (hreset : s.mu.resetPending = true)
    (hroom : (s.arrived dt h).hasRoom .upNormal = true) (payload : List Byte) (req : Byte) (act : State → State) :
    ∃ t, live dt (State.request h payload fun u => u.takeRequest h.tag req act) s = t ∧
      (s.arrived dt h).replied t h.tag req .busy [] ∧ (s.arrived dt h).keepsBut t [.line, .counters] := by
  obtain ⟨t, hrun, hup, hkeeps⟩ := request_owner hc hp hsel payload fun u => u.takeRequest h.tag req act
  have hbusy : (s.arrived dt h).takeRequest h.tag req act = ((s.arrived dt h).count .mgmtRequests).reply h.tag req .busy [] :=
    if_pos (by simpa using hreset)
  rw [hbusy] at hup hkeeps
  refine ⟨t, hrun, ?_, keepsBut_trans (count_keepsBut _ _ _ (by simp)) (keepsBut_trans (reply_keepsBut _ _ _ _ _) hkeeps
    (List.Subset.refl _)) (List.Subset.refl _)⟩
  rw [State.replied, hup]
  exact reply_replied (State.count_keeps _ _).2.2.2.1 hroom _ _ _ _

/-- R176: a taken request that its owner answers by one reply and otherwise leaves the state. -/
theorem request_refused {s : State} {dt : Nat} {h : Hdr} {req : Byte} {act : State → State} {st : Status}
    {results : List Byte} (ht : s.takesRequest dt h)
    (hact : act ((s.arrived dt h).count .mgmtRequests) = ((s.arrived dt h).count .mgmtRequests).reply h.tag req st results)
    (payload : List Byte) :
    ∃ t, live dt (State.request h payload fun u => u.takeRequest h.tag req act) s = t ∧
      (s.arrived dt h).replied t h.tag req st results ∧ (s.arrived dt h).keepsBut t [.line, .counters] := by
  obtain ⟨t, hrun, hreplied, hkeeps⟩ := request_answered ht hact (State.count_keeps _ _).2.2.2.1 payload
  exact ⟨t, hrun, hreplied, keepsBut_trans (count_keepsBut _ _ _ (by simp)) hkeeps (List.Subset.refl _)⟩

/-! ## LINE_RESET (R192) -/

theorem selected_congr {s t : State} (haddr : t.mu.addr = s.mu.addr) (hhop : t.line.hop = s.line.hop) (h : Hdr) :
    t.selected h = s.selected h := by simp only [State.selected, haddr, hhop]

/-- R192: with no save and with room the reply joins UP normal and reset pending is set. -/
theorem askLineReset_of_room {s : State} (hsave : s.mu.save = none) (hr : s.hasRoom .upNormal = true) (tag : Byte) :
    (s.askLineReset tag).line.up =
      { s.line.up with normal := s.line.up.normal ++ [⟨replyFrame tag 11 .ok [], none, .resetReply⟩] } ∧
    (s.askLineReset tag).mu = { s.mu with resetPending := true } ∧ s.keepsBut (s.askLineReset tag) [.line, .mu] := by
  obtain ⟨-, hjoin⟩ | ⟨hfull, -⟩ := joinOwn_cases { s with mu := { s.mu with resetPending := true } }
    (replyFrame tag 11 .ok []) .resetReply .repliesLost
  · unfold State.askLineReset
    dsimp only
    rw [if_neg (by simp [hsave]), hjoin, if_pos hr]
    refine ⟨rfl, rfl, fun p hp => ?_⟩
    cases p <;> simp [State.samePart, State.setQueue] at hp ⊢
  · rw [show ({ s with mu := { s.mu with resetPending := true } } : State).hasRoom .upNormal = s.hasRoom .upNormal from rfl,
      hr] at hfull
    cases hfull

theorem askLineReset_of_save {s : State} (hsave : s.mu.save.isSome = true) (tag : Byte) :
    s.askLineReset tag = s.reply tag 11 .busy [] := if_pos hsave

/-- R30: learning the position adds to UP normal the notice POSITION alone, and none where the class is not enabled. -/
theorem learnAt_up {h : Hdr} (hp : h.port = .up) (s : State) :
    (s.learnAt h).line.hop = some (nextHop h.hops) ∧ s.keepsBut (s.learnAt h) [.line, .counters] ∧
    ∃ l, (s.mu.node.enables.getLsbD 0 = false ∨ s.line.hop = some (nextHop h.hops) → l = []) ∧ l.length ≤ 1 ∧
      (∀ i ∈ l, i.frame.kind = 0x42) ∧ (s.learnAt h).line.up = { s.line.up with normal := s.line.up.normal ++ l } := by
  rw [State.learnAt, if_pos hp, State.learnHop]
  split
  · next hsame => exact ⟨hsame, State.keepsBut.refl _ _, [], by simp, by simp, by simp, by simp⟩
  · next hdiff =>
    refine ⟨by simp, fun p hq => by cases p <;> simp [State.samePart] at hq ⊢, ?_⟩
    obtain ⟨-, he⟩ | ⟨hen, -, he⟩ | ⟨-, -, he⟩ := raise_cases
      { s with line := { s.line with hop := some (nextHop h.hops) } } .line 4 (enc8 (hopCode s.line.hop) ++ [nextHop h.hops])
    · exact ⟨[], by simp, by simp, by simp, by simp [he]⟩
    · refine ⟨[_], fun hl => ?_, by simp, fun i hi => ?_, by rw [he]; simp only [State.setQueue]; rfl⟩
      · obtain hoff | hsame := hl
        · exact absurd (hen.symm.trans hoff) (by simp)
        · exact absurd hsame hdiff
      · rw [List.mem_singleton.mp hi]
        rfl
    · exact ⟨[], by simp, by simp, by simp, by simp [he]⟩

/-- R192: the loss of UP taken before a LINE_RESET: the request is taken in the state after it. -/
theorem live_requestAfterLoss {s : State} {dt : Nat} {h : Hdr} (hc : s.canHear .up) (hp : h.port = .up)
    (hno : ∀ i ∈ s.line.up.express ++ s.line.up.normal, i.origin ≠ .resetReply) (payload : List Byte)
    (owner : State → State) :
    live dt (State.requestAfterLoss h payload owner) s =
      State.matchRequest h payload owner (((s.elapse dt).endReception .up).upGone.learnAt h) := by
  have hlost : ((s.elapse dt).endReception .up).signalLost .up = ((s.elapse dt).endReception .up).upGone :=
    signalLost_up_of_no_reply (by simpa [State.endReception, State.setPort, State.port] using hc.2.1)
      (by simpa [State.endReception, State.setPort, State.port] using hno)
  rw [live_running hc.1, State.requestAfterLoss, hp, hears_elapse hc dt, if_pos rfl, hlost, State.sorted, if_pos hp]

/-- R24, R30: what the node is when UP is lost and the frame that came together with the loss has taught its position. -/
theorem upGone_learnAt {h : Hdr} (hp : h.port = .up) (s : State) (dt : Nat) :
    ∃ w l, ((s.elapse dt).endReception .up).upGone.learnAt h = w ∧ w.line.hop = some (nextHop h.hops) ∧
      (s.mu.node.enables.getLsbD 0 = false ∨ s.line.hop = some (nextHop h.hops) → l = []) ∧ l.length ≤ 1 ∧
      (∀ i ∈ l, i.frame.kind = 0x42) ∧
      w.line.up = { s.line.up with link := .absent, rx := none, express := [], normal := l } ∧ (∀ r, w.call r = none) ∧
      w.tb = { (s.elapse dt).tb with echo := .idle, echoPeriod := none } ∧
      (s.elapse dt).keepsBut w [.line, .tb, .pe, .za, .csv, .counters, .draws] := by
  obtain ⟨hline, htb, hcalls, -, -, hkeeps⟩ := upGone_parts ((s.elapse dt).endReception .up)
  obtain ⟨hhop, hwkeeps, l, hempty, hlen, hnotices, hup⟩ := learnAt_up hp ((s.elapse dt).endReception .up).upGone
  have hmu : ((s.elapse dt).endReception .up).upGone.mu = s.mu := by
    rw [show _ = ((s.elapse dt).endReception .up).mu from hkeeps .mu (by simp)]
    simp [State.endReception, State.setPort]
  have hend : (s.elapse dt).keepsBut ((s.elapse dt).endReception .up) [.line] := fun p hq => by
    cases p <;> simp [State.samePart, State.endReception, State.setPort] at hq ⊢
  rw [hmu, hline] at hempty
  rw [hline] at hup
  refine ⟨_, l, rfl, hhop, fun hl => hempty ?_, hlen, hnotices, ?_, fun r => ?_, ?_, ?_⟩
  · simpa [State.endReception, State.setPort] using hl
  · rw [hup]
    simp [State.endReception, State.setPort, State.port]
  · rw [State.call, show (_ : State).pe = _ from hwkeeps .pe (by simp)]
    exact hcalls r
  · rw [show (_ : State).tb = _ from hwkeeps .tb (by simp), htb]
    simp [State.endReception, State.setPort]
  · exact ((hend.append hkeeps).append hwkeeps).mono (by decide)

/-- R32, R33: what a request that matches leaves, behind its copy for DOWN. -/
theorem matchRequest_of_selected {t : State} {h : Hdr} (hsel : t.selected h = true) (payload : List Byte)
    (owner : State → State) :
    (State.matchRequest h payload owner t).line.up = (owner t).line.up ∧
      (owner t).keepsBut (State.matchRequest h payload owner t) [.line, .counters] := by
  unfold State.matchRequest
  split
  · exact ⟨rfl, State.keepsBut.refl _ _⟩
  · exact ⟨copyDown_normal_line_up _ _ _ _, copyDown_keepsBut _ _ _ _ _⟩

/-- Settles O54: the request is its owner's answer in the state of its arrival, or in the state that the loss of UP leaves. -/
theorem lineResetAsked : Obligations.LineResetAsked := by
  intro s dt h v
  have hvmu : v.mu = s.mu := by simp [v]
  refine ⟨fun ht hsave => ?_, fun ht hsave => ?_, fun hc hp hsel hreset hroom => ?_, fun hc hp hsel hreset hsave hno => ?_⟩
  · obtain ⟨t, hrun, hup, hkeeps⟩ := request_acted ht [11] 11 (State.askLineReset h.tag)
    obtain ⟨haup, hamu, hakeeps⟩ := askLineReset_of_room (s := v.count .mgmtRequests) (by simpa [v] using hsave) ht.2.2.2.2 h.tag
    have hmu : t.mu = _ := hkeeps .mu (by simp)
    refine ⟨t, congrArg Host.Outcome.next hrun, by rw [hmu, hamu, ← hvmu]; rfl, by rw [hup, haup]; rfl, ?_⟩
    exact (((count_keepsBut v .mgmtRequests [.counters] (by simp)).append hakeeps).append hkeeps).mono (by decide)
  · obtain ⟨t, hrun, hanswer⟩ := request_refused (act := State.askLineReset h.tag) ht
      (askLineReset_of_save (by simpa using hsave) _) [11]
    exact ⟨t, congrArg Host.Outcome.next hrun, hanswer⟩
  · have hbusy := request_busy hc hp hsel hreset hroom
    simp only [List.mem_cons, List.not_mem_nil, or_false]
    rintro q (rfl | rfl | rfl | rfl | rfl)
    · obtain ⟨t, hrun, hanswer⟩ := hbusy [1] 1 (State.ping h.tag)
      exact ⟨t, congrArg Host.Outcome.next hrun, hanswer⟩
    · obtain ⟨t, hrun, hanswer⟩ := hbusy [5] 5 (State.activate h.tag)
      exact ⟨t, congrArg Host.Outcome.next hrun, hanswer⟩
    · obtain ⟨t, hrun, hanswer⟩ := hbusy [6] 6 (State.status h.tag)
      exact ⟨t, congrArg Host.Outcome.next hrun, hanswer⟩
    · obtain ⟨t, hrun, hanswer⟩ := hbusy [10] 10 (State.saveImage h.tag)
      exact ⟨t, congrArg Host.Outcome.next hrun, hanswer⟩
    · obtain ⟨t, hrun, hanswer⟩ := hbusy [11] 11 (State.askLineReset h.tag)
      exact ⟨t, congrArg Host.Outcome.next hrun, hanswer⟩
  · obtain ⟨w, l, hw, hhop, hempty, hlen, hnotices, hwup, hcalls, htb, hwkeeps⟩ := upGone_learnAt hp s dt
    have hwmu : w.mu = s.mu := (show w.mu = (s.elapse dt).mu from hwkeeps .mu (by simp)).trans (by simp)
    have hwsel : w.selected h = true := by
      rw [selected_congr (s := v) (by rw [hwmu, hvmu]) (by rw [hhop, arrived_up_hop hp])]
      exact hsel
    have hroom : (w.count .mgmtRequests).hasRoom .upNormal = true := by
      have : l.length < 32 := by omega
      simpa [State.hasRoom, State.queue, QueueId.capacity, hwup] using this
    obtain ⟨hup, hkeeps⟩ := matchRequest_of_selected hwsel [11] fun u => u.takeRequest h.tag 11 (State.askLineReset h.tag)
    rw [takeRequest_of_no_reset (by rw [hwmu, hreset])] at hup hkeeps
    obtain ⟨haup, hamu, hakeeps⟩ := askLineReset_of_room (s := w.count .mgmtRequests) (by simpa [hwmu] using hsave) hroom h.tag
    have hrun := live_requestAfterLoss (dt := dt) hc hp hno [11] fun u => u.takeRequest h.tag 11 (State.askLineReset h.tag)
    rw [hw] at hrun
    have hcount := (count_keepsBut w .mgmtRequests [.counters] (by simp)).append hakeeps |>.append hkeeps
    have hup' : _ = { s.line.up with
        link := .absent, rx := none, express := [], normal := l ++ [(⟨replyFrame h.tag 11 .ok [], none, .resetReply⟩ : QItem)] } :=
      (hup.trans haup).trans (by simp [hwup])
    refine ⟨_, congrArg Host.Outcome.next hrun, ?_, by rw [hup'], by rw [hup'], by rw [hup'],
      ⟨l, fun hl => hempty ?_, hnotices, by rw [hup']⟩, fun r => ?_, ?_, (hwkeeps.append hcount).mono (by decide)⟩
    · rw [show (_ : State).mu = _ from hkeeps .mu (by simp), hamu, ← hwmu]
      rfl
    · rwa [← arrived_up_hop hp s dt, eq_comm (a := s.line.hop)]
    · rw [State.call, show (_ : State).pe = w.pe from hcount .pe (by simp)]
      exact hcalls r
    · rw [show (_ : State).tb = w.tb from hcount .tb (by simp), htb]
      simp [v]

end Sys2Proof.Machine

/-! PROOFS. The statements on requests whose owner answers at once (R91, R148, R176, R177, R179, R182, R188), with the laws of
entry to and leaving of FAULT. -/

namespace Sys2Proof.Machine

/-! ## Frames added to UP normal (R37, R184) -/

/-- UP normal of t is that of s with frames behind it. -/
def State.appends (s t : State) : Prop := ∃ more, t.line.up.normal = s.line.up.normal ++ more

namespace State.appends

variable {s t u : State}

theorem of_line (h : t.line.up.normal = s.line.up.normal) : s.appends t := ⟨[], by rw [h, List.append_nil]⟩

theorem refl (s : State) : s.appends s := of_line rfl

theorem trans (h : s.appends t) (h' : t.appends u) : s.appends u := by
  obtain ⟨l, hl⟩ := h
  obtain ⟨l', hl'⟩ := h'
  exact ⟨l ++ l', by rw [hl', hl, List.append_assoc]⟩

theorem of_notifies {n : Nat} (h : s.notifies t n) : s.appends t := by
  obtain ⟨more, -, hline, -⟩ := h
  exact ⟨more, by rw [hline]⟩

theorem raise (s : State) (c : NoticeClass) (k : Nat) (a : List Byte) : s.appends (s.raise c k a) :=
  of_notifies (.raise s c k a)

theorem evaluate (s : State) (k : LineNo) : s.appends (s.evaluate k) := of_notifies (.evaluate s k)

theorem ite {p : Prop} [Decidable p] (ht : s.appends t) (hu : s.appends u) : s.appends (if p then t else u) := by
  split <;> assumption

theorem foldl {α : Type} {g : State → α → State} (h : ∀ (t : State) a, t.appends (g t a)) (l : List α) (s : State) :
    s.appends (l.foldl g s) := by
  induction l generalizing s with
  | nil => exact refl s
  | cons a l ih => exact (h s a).trans (ih _)

end State.appends

/-- R176: the reply stands first behind what UP normal held, whatever is added behind it. -/
theorem repliedFirst_of_appends {s t u : State} {tag req : Byte} {st : Status} {results : List Byte}
    (h : s.replied t tag req st results) (h' : t.appends u) : s.repliedFirst u tag req st results := by
  obtain ⟨more, hmore⟩ := h'
  exact ⟨more, by rw [hmore, h, List.append_assoc]; rfl⟩

theorem appends_of_up {s t : State} (h : t.line.up = s.line.up) : s.appends t := .of_line (by rw [h])

/-- R176: a taken request that is replied OK before its owner acts, by g: what holds of the state w behind the reply, and what
t keeps of g w. -/
theorem request_replied_then {s : State} {dt : Nat} {h : Hdr} {req : Byte} {act g : State → State}
    (ht : s.takesRequest dt h)
    (hact : act ((s.arrived dt h).count .mgmtRequests) = g (((s.arrived dt h).count .mgmtRequests).ok h.tag req))
    (payload : List Byte) :
    ∃ t w, live dt (State.request h payload fun u => u.takeRequest h.tag req act) s = t ∧
      (s.arrived dt h).replied w h.tag req .ok [] ∧ (s.arrived dt h).keepsBut w [.line, .counters] ∧
      t.line.up = (g w).line.up ∧ (g w).keepsBut t [.line, .counters] := by
  obtain ⟨t, hrun, hup, hkeeps⟩ := request_acted ht payload req act
  rw [hact] at hup hkeeps
  refine ⟨t, _, hrun, reply_replied (by simp) ht.2.2.2.2 h.tag req .ok [], ?_, hup, hkeeps⟩
  exact ((count_keepsBut (s.arrived dt h) .mgmtRequests [.counters] (by simp)).append (reply_keepsBut _ h.tag req .ok [])).mono
    (by decide)

/-! ## The record of a circuit (R145 to R150) -/

theorem circ_setCirc (s : State) (c : Circuit) (v : CircRecord) (d : Circuit) :
    (s.setCirc c v).circ d = if d = c then v else s.circ d := by
  split
  · next h => rw [h, State.circ_setCirc_self]
  · next h => rw [State.circ_setCirc_ne _ _ h]

/-- R145: an entry to FAULT writes the record of its circuit and no other. -/
theorem circ_enterFault (s : State) (c : Circuit) (kind : FaultKind) (reading : Byte) (isolate fromPulse : Bool)
    (d : Circuit) : (s.enterFault c kind reading isolate fromPulse).circ d =
      if d = c then ⟨.fault, 0, some kind, isolate, false, some reading⟩ else s.circ d := by
  rw [← circ_setCirc]
  refine circ_of_records ?_ d
  unfold State.enterFault State.faultSeen isolationBegins
  dsimp only
  (repeat' split) <;> simp

/-- R146 to R148, R150: leaving FAULT writes the record of its circuit and no other. -/
theorem circ_leaveFault (s : State) (c : Circuit) (cr : CircRecord) (cause : RecoverCause) (d : Circuit) :
    (s.leaveFault c cr cause).circ d = if d = c then cr else s.circ d := by
  rw [← circ_setCirc]
  refine circ_of_records ?_ d
  unfold State.leaveFault State.faultLeft isolationLifted
  dsimp only
  (repeat' split) <;> simp

theorem leaveFault_appends (s : State) (c : Circuit) (cr : CircRecord) (cause : RecoverCause) :
    s.appends (s.leaveFault c cr cause) := by
  have hleft : ∀ (u : State) (w : Bool), u.appends (u.faultLeft c w) := fun u w => by
    unfold State.faultLeft isolationLifted
    split
    · exact .ite (.of_line (by simp)) (.refl u)
    · exact .evaluate u _
    · exact .refl u
  unfold State.leaveFault
  exact State.appends.trans (t := (s.setCirc c cr).count .circRecoveries) (.of_line (by simp))
    ((State.appends.raise _ _ _ _).trans (hleft _ _))

/-! ## Requests not of the table (R176) -/

theorem exec_unknownRequest (dt : Nat) (h : Hdr) (payload : List Byte) (s : State) :
    exec (.unknownRequest dt h payload) s = carried (fits payload && !holdsRequest payload)
      (live dt (State.request h payload (State.unknownRequest h.tag payload)) s) := rfl

theorem exec_writeTableBadSpace (dt : Nat) (h : Hdr) (space : Byte) (start : Word16) (count : Byte) (data : List Byte)
    (s : State) : exec (.writeTableBadSpace dt h space start count data) s =
      carried (fits (writePayload space start count data) && decide (11 ≤ space.toNat))
        (live dt (State.request h (writePayload space start count data)
          fun t => t.takeRequest h.tag 4 fun u => u.reply h.tag 4 .badSpace []) s) := rfl

/-- Settles O55: each is one refusal, whatever the payload. -/
theorem requestsRefused : Obligations.RequestsRefused := by
  intro s dt h ht v
  constructor
  · intro c rest hlen hnot
    obtain ⟨hc, hp, hsel, hreset, hroom⟩ := ht
    obtain ⟨t, hrun, hup, hkeeps⟩ := request_owner hc hp hsel (c :: rest) (State.unknownRequest h.tag (c :: rest))
    have hact : State.unknownRequest h.tag (c :: rest) v =
        (v.draw.2.count .mgmtRequests).reply h.tag c .badRange [] := by
      rw [State.unknownRequest, takeRequest_of_no_reset (by simpa [v] using hreset)]
      rfl
    have hdraw : v.keepsBut (v.draw.2.count .mgmtRequests) [.counters, .draws] := fun p hq => by
      cases p <;> simp [State.samePart] at hq ⊢
    rw [hact] at hup hkeeps
    refine ⟨t, ?_, ?_, ((hdraw.append (reply_keepsBut _ _ _ _ _)).append hkeeps).mono (by decide)⟩
    · rw [exec_unknownRequest, hrun, hnot, show fits (c :: rest) = true from decide_eq_true (by simp; omega)]
      rfl
    · rw [State.replied, hup]
      exact reply_replied (by simp [v]) hroom _ _ _ _
  · intro space start count data hspace hlen
    obtain ⟨t, hrun, hanswer⟩ := request_refused (act := fun u => u.reply h.tag 4 .badSpace []) ht rfl
      (writePayload space start count data)
    refine ⟨t, ?_, hanswer⟩
    rw [exec_writeTableBadSpace, hrun, fits_writePayload, show recordsFit data = true from decide_eq_true hlen,
      decide_eq_true hspace]
    rfl

/-! ## Saving the image (R187, R188) -/

theorem exec_saveImage (dt : Nat) (h : Hdr) (s : State) : exec (.saveImage dt h) s =
    .next (live dt (State.request h [10] fun u => u.takeRequest h.tag 10 (State.saveImage h.tag)) s) := rfl

/-- The state in which a save runs (R188). -/
def State.saveStarted (s : State) (tag : Byte) : State :=
  { s with mu := { s.mu with save := some ⟨s.snapshot, tag⟩ }, image := none }

theorem saveImage_of_idle {s : State} (h : s.mu.save = none) (tag : Byte) : s.saveImage tag = s.saveStarted tag := by
  rw [State.saveImage, if_neg (by simp [h]), State.saveStarted]

theorem saveStarted_keepsBut (s : State) (tag : Byte) : s.keepsBut (s.saveStarted tag) [.mu, .image] := fun p hp => by
  cases p <;> simp [State.samePart, State.saveStarted] at hp ⊢

/-- The state in which the save w has ended (R188). -/
def State.saveEnded (s : State) (w : Save) : State :=
  { s with mu := { s.mu with save := none }, image := some w.snapshot }

theorem saveDone_of_save {s : State} {w : Save} (h : s.mu.save = some w) :
    s.saveDone = (s.saveEnded w).reply w.tag 10 .ok [] := by
  rw [State.saveDone, h]
  rfl

theorem saveEnded_keepsBut (s : State) (w : Save) : s.keepsBut (s.saveEnded w) [.mu, .image] := fun p hp => by
  cases p <;> simp [State.samePart, State.saveEnded] at hp ⊢

/-- R176: a reply of OK that finds room counts nothing. -/
theorem reply_counters_of_room {s : State} (h : s.hasRoom .upNormal = true) (tag req : Byte) (results : List Byte) :
    (s.reply tag req .ok results).counters = s.counters := by
  obtain ⟨-, he⟩ | ⟨hfull, -⟩ := ok_cases s tag req results
  · rw [he]
    rfl
  · rw [h] at hfull
    cases hfull

/-- Settles O53: the request writes its snapshot, and the completion the image. -/
theorem imageSaved : Obligations.ImageSaved := by
  intro s dt h
  refine ⟨fun ht hsave => ?_, fun ht hsave => ?_, fun w hh hsave hroom => ?_⟩
  · let v := s.arrived dt h
    obtain ⟨t, hrun, hup, hkeeps⟩ := request_acted ht [10] 10 (State.saveImage h.tag)
    rw [saveImage_of_idle (by simpa using hsave)] at hup hkeeps
    have hset := saveStarted_keepsBut (v.count .mgmtRequests) h.tag
    have hmu : (v.count .mgmtRequests).mu = s.mu := by simp [v]
    have hsnapshot : (v.count .mgmtRequests).snapshot = s.snapshot := by simp [v, State.snapshot]
    refine ⟨t, congrArg Host.Outcome.next hrun, ?_, hkeeps .image (by simp), by rw [hup]; rfl,
      (((count_keepsBut v .mgmtRequests [.counters] (by simp)).append hset).append hkeeps).mono (by decide)⟩
    rw [show t.mu = _ from hkeeps .mu (by simp), ← hmu, ← hsnapshot]
    rfl
  · obtain ⟨t, hrun, hanswer⟩ := request_refused (act := State.saveImage h.tag) ht
      (if_pos (by simpa using hsave)) [10]
    exact ⟨t, congrArg Host.Outcome.next hrun, hanswer⟩
  · have hrun : (s.elapse dt).saveDone = ((s.elapse dt).saveEnded w).reply w.tag 10 .ok [] :=
      saveDone_of_save (by simpa using hsave)
    have hroom' : (s.elapse dt).hasRoom .upNormal = true := by
      simpa [State.hasRoom, State.queue, QueueId.capacity] using hroom
    have hkeeps := (saveEnded_keepsBut (s.elapse dt) w).append (reply_keepsBut _ w.tag 10 .ok [])
    have hreplied := reply_replied (s := s.elapse dt) (w := (s.elapse dt).saveEnded w) rfl hroom' w.tag 10 .ok []
    have hparts := reply_keepsBut ((s.elapse dt).saveEnded w) w.tag 10 .ok []
    have hcounters := reply_counters_of_room (s := (s.elapse dt).saveEnded w) hroom' w.tag 10 []
    refine ⟨_, congrArg Host.Outcome.next ((live_running hh ..).trans hrun), ?_, hparts .image (by simp), hreplied,
      fun p hp => ?_⟩
    · rw [show (_ : State).mu = _ from hparts .mu (by simp)]
      simp [State.saveEnded]
    · by_cases hc : p = .counters
      · subst hc
        exact hcounters
      · exact hkeeps p (by simp_all)

/-! ## Recovering a circuit (R148) -/

theorem exec_recoverCircuit (dt : Nat) (h : Hdr) (n : Byte) (s : State) : exec (.recoverCircuit dt h n) s =
    .next (live dt (State.request h [8, n] fun u => u.takeRequest h.tag 8 (State.recover h.tag n)) s) := rfl

theorem toNat_ofNat_fin {n : Nat} (hn : n ≤ 256) (i : Fin n) : (BitVec.ofNat 8 i.val).toNat = i.val := by
  simp only [BitVec.toNat_ofNat]
  omega

/-- R148: RECOVER_CIRCUIT by the state of the circuit it names. -/
theorem recover_circuit (s : State) (tag : Byte) (c : Circuit) : s.recover tag (BitVec.ofNat 8 c.val) =
    if (s.circ c).state = .fault then
      if (s.circ c).recoverable then
        (s.ok tag 8).leaveFault c { CircRecord.fresh with last := (s.circ c).last } .request
      else s.reply tag 8 .badState []
    else s.ok tag 8 := by
  have hn := toNat_ofNat_fin (by omega) c
  unfold State.recover
  simp only [hn, c.isLt, dite_true]

/-- Settles O44: the three cases of R148. -/
theorem circuitRecovered : Obligations.CircuitRecovered := by
  intro s dt h c ht v n
  have hcirc : ∀ d, (v.count .mgmtRequests).circ d = s.circ d := fun d => by simp [State.circ, v]
  have hact := recover_circuit (v.count .mgmtRequests) h.tag c
  rw [hcirc] at hact
  refine ⟨fun hf hr => ?_, fun hf hr => ?_, fun hf => ?_⟩
  · rw [if_pos hf, if_pos hr] at hact
    obtain ⟨t, w, hrun, hreplied, hw, hup, hkeeps⟩ := request_replied_then (req := 8)
      (g := fun u => u.leaveFault c { CircRecord.fresh with last := (s.circ c).last } .request) ht hact [8, n]
    have hleft : ∀ d, t.circ d = if d = c then { CircRecord.fresh with last := (s.circ c).last } else s.circ d :=
      fun d => by
        rw [hkeeps.circ (by simp), circ_leaveFault, hw.circ (by simp), readings_arrived s dt h |>.1]
    have hleaveKeeps : w.keepsBut (w.leaveFault c { CircRecord.fresh with last := (s.circ c).last } .request)
        [.line, .za, .cld, .csv, .counters, .draws] :=
      fun p hq => by cases p <;> simp [State.samePart] at hq ⊢
    exact ⟨t, congrArg Host.Outcome.next hrun,
      repliedFirst_of_appends hreplied ((leaveFault_appends _ _ _ _).trans (appends_of_up hup)), by rw [hleft, if_pos rfl]; rfl,
      fun d hd => by rw [hleft, if_neg hd], ((hw.append hleaveKeeps).append hkeeps).mono (by decide)⟩
  · rw [if_pos hf, if_neg (by simp [hr])] at hact
    obtain ⟨t, hrun, hanswer⟩ := request_refused ht hact [8, n]
    exact ⟨t, congrArg Host.Outcome.next hrun, hanswer⟩
  · rw [if_neg hf] at hact
    obtain ⟨t, hrun, hanswer⟩ := request_refused ht hact [8, n]
    exact ⟨t, congrArg Host.Outcome.next hrun, hanswer⟩

end Sys2Proof.Machine

/-! PROOFS. The statements on addressing, forces, reading and the resynchronisation of a clock line (R91, R92, R130, R131, R177,
R179, R182, R183). -/

namespace Sys2Proof.Machine

/-! ## Notices (R184) -/

theorem raise_keepsBut (s : State) (c : NoticeClass) (k : Nat) (a : List Byte) :
    s.keepsBut (s.raise c k a) [.line, .counters] := fun p hp => by
  cases p <;> simp [State.samePart] at hp ⊢

/-- R184: a notice that finds room counts nothing. -/
theorem raise_keepsBut_of_room {s : State} (h : s.hasRoom .upNormal = true) (c : NoticeClass) (k : Nat) (a : List Byte) :
    s.keepsBut (s.raise c k a) [.line] := by
  obtain ⟨-, he⟩ | ⟨-, -, he⟩ | ⟨-, hfull, -⟩ := raise_cases s c k a
  · rw [he]
    exact .refl s _
  · rw [he]
    intro p hp
    cases p <;> simp [State.samePart, State.setQueue] at hp ⊢
  · rw [h] at hfull
    cases hfull

/-! ## Addressing (R182, R183) -/

theorem exec_setAddr (dt : Nat) (h : Hdr) (addr : Word16) (s : State) : exec (.setAddr dt h addr) s =
    .next (live dt (State.request h ([2] ++ enc16 addr.toNat) fun u => u.takeRequest h.tag 2 (State.setAddr h addr)) s) := rfl

/-- The state whose address a SET_ADDR has set (R182, R183). -/
def State.addressed (s : State) (addr : Word16) : State :=
  { s with mu := { s.mu with addr := addr, unassignedEnd := none } }

/-- R182: a SET_ADDR by POS of a good address is replied OK, and a new address raises ADDRESS. -/
theorem setAddr_good {s : State} {h : Hdr} {addr : Word16} (hmode : h.mode = 1) (hlo : 1 ≤ addr.toNat)
    (hhi : addr.toNat ≤ 1000) (hsave : s.mu.save = none) :
    s.setAddr h addr = if s.mu.addr = addr then (s.addressed addr).reply h.tag 2 .ok (enc16 addr.toNat)
      else ((s.addressed addr).reply h.tag 2 .ok (enc16 addr.toNat)).raise .mgmt 2
        (enc16 s.mu.addr.toNat ++ enc16 addr.toNat) := by
  have hne : ¬(addr = 0 ∨ 1000 < addr.toNat) := by
    rintro (rfl | hlt)
    · simp at hlo
    · omega
  rw [State.setAddr, if_neg (by simp [hmode]), if_neg hne, if_neg (by simp [hsave])]
  rfl

/-- R182: a SET_ADDR by another selector is refused. -/
theorem setAddr_other {s : State} {h : Hdr} (hmode : h.mode ≠ 1) (addr : Word16) :
    s.setAddr h addr = s.reply h.tag 2 .badState [] := if_pos hmode

/-- The state whose unassigned timer, due at e, runs again (R183). -/
def State.unassignedAgain (s : State) (e : Nat) : State := { s with mu := { s.mu with unassignedEnd := some (e + 5000000) } }

/-- R183: at its end the unassigned timer runs again, and raises UNASSIGNED while UP is ACTIVE. -/
theorem unassignedEnds_of_due {s : State} {e : Nat} (hend : s.mu.unassignedEnd = some e) (hdue : e ≤ s.now)
    (hlink : s.line.up.link = .active) :
    s.unassignedEnds = (s.unassignedAgain e).raise .mgmt 3 (enc8 (hopCode s.line.hop)) := by
  rw [State.unassignedEnds, hend]
  dsimp only
  rw [if_pos hdue, if_pos hlink]
  rfl

/-- Settles O50: the answer by POS, the refusal of any other selector, and the timer. -/
theorem addressSet : Obligations.AddressSet := by
  intro s dt h
  refine ⟨fun addr ht hmode hlo hhi hsave => ?_, fun addr ht hmode => ?_, fun e hh hend hdue hlink hen hroom => ?_⟩
  · let v := s.arrived dt h
    let w := ((v.count .mgmtRequests).addressed addr).reply h.tag 2 .ok (enc16 addr.toNat)
    obtain ⟨t, hrun, hup, hkeeps⟩ := request_acted ht ([2] ++ enc16 addr.toNat) 2 (State.setAddr h addr)
    have hact := setAddr_good (s := v.count .mgmtRequests) hmode hlo hhi (by simpa [v] using hsave)
    have hw : w.appends (State.setAddr h addr (v.count .mgmtRequests)) ∧
        w.keepsBut (State.setAddr h addr (v.count .mgmtRequests)) [.line, .counters] := by
      rw [hact]
      split
      · exact ⟨.refl w, State.keepsBut.refl w _⟩
      · exact ⟨.raise w _ _ _, raise_keepsBut w _ _ _⟩
    obtain ⟨happends, hnotice⟩ := hw
    have hreplied : v.replied w h.tag 2 .ok (enc16 addr.toNat) :=
      reply_replied (s := v) (w := (v.count .mgmtRequests).addressed addr) (by simp [State.addressed]) ht.2.2.2.2 _ _ _ _
    have hset : v.keepsBut ((v.count .mgmtRequests).addressed addr) [.mu, .counters] := fun p hq => by
      cases p <;> simp [State.samePart, State.addressed] at hq ⊢
    have hall := ((reply_keepsBut ((v.count .mgmtRequests).addressed addr) h.tag 2 .ok (enc16 addr.toNat)).append hnotice).append
      hkeeps
    refine ⟨t, congrArg Host.Outcome.next hrun, repliedFirst_of_appends hreplied (happends.trans (appends_of_up hup)), ?_,
      (hset.append hall).mono (by decide)⟩
    rw [show t.mu = _ from hall .mu (by simp)]
    simp [State.addressed, v]
  · obtain ⟨t, hrun, hanswer⟩ := request_refused (act := State.setAddr h addr) ht (setAddr_other hmode addr)
      ([2] ++ enc16 addr.toNat)
    exact ⟨t, congrArg Host.Outcome.next hrun, hanswer⟩
  · have hdue' : (s.elapse dt).unassignedEnds = ((s.elapse dt).unassignedAgain e).raise .mgmt 3 (enc8 (hopCode s.line.hop)) := by
      rw [unassignedEnds_of_due (by simpa using hend) (by simpa using hdue) (by simpa using hlink)]
      simp
    have hroom' : ((s.elapse dt).unassignedAgain e).hasRoom .upNormal = true := by
      simpa [State.unassignedAgain, State.hasRoom, State.queue, QueueId.capacity] using hroom
    have hkeeps := raise_keepsBut_of_room hroom' .mgmt 3 (enc8 (hopCode s.line.hop))
    have hagain : (s.elapse dt).keepsBut ((s.elapse dt).unassignedAgain e) [.mu] := fun p hq => by
      cases p <;> simp [State.samePart, State.unassignedAgain] at hq ⊢
    refine ⟨_, congrArg Host.Outcome.next ((live_running hh ..).trans hdue'), ?_, ?_, (hagain.append hkeeps).mono (by decide)⟩
    · have hnoticed := raise_noticed (s := (s.elapse dt).unassignedAgain e) (c := .mgmt)
        (by rw [show ((s.elapse dt).unassignedAgain e).mu.node = s.mu.node by simp [State.unassignedAgain]]; exact hen) hroom' 3
        (enc8 (hopCode s.line.hop))
      exact hnoticed
    · rw [show (_ : State).mu = _ from hkeeps .mu (by simp)]
      simp [State.unassignedAgain]

/-! ## Forces (R91, R92) -/

theorem exec_forceOn (dt : Nat) (h : Hdr) (n : Byte) (s : State) : exec (.forceOn dt h n) s =
    .next (live dt (State.request h [9, n, 1] fun u => u.takeRequest h.tag 9 (State.forceOn h.tag n)) s) := rfl

theorem exec_forceOff (dt : Nat) (h : Hdr) (n : Byte) (s : State) : exec (.forceOff dt h n) s =
    .next (live dt (State.request h [9, n, 2] fun u => u.takeRequest h.tag 9 (State.forceOff h.tag n)) s) := rfl

theorem exec_forceRelease (dt : Nat) (h : Hdr) (n : Byte) (s : State) : exec (.forceRelease dt h n) s =
    .next (live dt (State.request h [9, n, 3] fun u => u.takeRequest h.tag 9 (State.forceRelease h.tag n)) s) := rfl

/-- R91: FORCE_OUTPUT by the output it names. -/
theorem forceOn_output (s : State) (tag : Byte) (o : Output) : s.forceOn tag (BitVec.ofNat 8 o.val) =
    if 16 ≤ o.val then s.reply tag 9 .badRange []
    else if s.mu.node.allowForceOn then (s.ok tag 9).applyOn o else s.reply tag 9 .denied [] := by
  have hn := toNat_ofNat_fin (by omega) o
  unfold State.forceOn
  simp only [hn, o.isLt, dite_true]

theorem forceOff_output (s : State) (tag : Byte) (o : Output) : s.forceOff tag (BitVec.ofNat 8 o.val) =
    if s.mu.node.allowForceOff then (s.ok tag 9).applyOff o else s.reply tag 9 .denied [] := by
  have hn := toNat_ofNat_fin (by omega) o
  unfold State.forceOff
  simp only [hn, o.isLt, dite_true]

theorem forceRelease_output (s : State) (tag : Byte) (o : Output) :
    s.forceRelease tag (BitVec.ofNat 8 o.val) = (s.ok tag 9).applyRelease o := by
  have hn := toNat_ofNat_fin (by omega) o
  unfold State.forceRelease
  simp only [hn, o.isLt, dite_true]

/-- R92: the force state of an output. -/
theorem setForce_out (s : State) (o r : Output) (f : ForceState) :
    (s.setForce o f).out r = if r = o then { s.out o with force := f } else s.out r := by
  rw [State.setForce, out_setOut]

/-- R92: what an accepted ON does to each output. -/
theorem applyOn_out {s : State} {o : Output} (h : (s.out o).force ≠ .on) :
    ((s.applyOn o).out o).force = .on ∧ (⟨.force, 2, .continuous, none⟩ : Claim) ∈ ((s.applyOn o).out o).claims ∧
      ∀ r, r ≠ o → (s.applyOn o).out r = s.out r := by
  rw [State.applyOn, if_neg h]
  refine ⟨by simp [setForce_out], by simp, fun r hr => ?_⟩
  rw [rechooseAll_out_ne (by simpa using hr), addClaim_out_ne _ _ hr, setForce_out, if_neg hr]

/-- R92: what a release of the claim does to each output, the force state f set. -/
theorem forceDropped_out (s : State) (o : Output) (f : ForceState) :
    ((rechooseAll [o] ((s.setForce o f).dropClaim .force o)).out o).force = f ∧
    ((rechooseAll [o] ((s.setForce o f).dropClaim .force o)).out o).claims =
      (s.out o).claims.filter (fun c => decide (c.source ≠ .force)) ∧
    ∀ r, r ≠ o → (rechooseAll [o] ((s.setForce o f).dropClaim .force o)).out r = s.out r := by
  refine ⟨by simp [setForce_out], by simp [setForce_out], fun r hr => ?_⟩
  rw [rechooseAll_out_ne (by simpa using hr), dropClaim_out_ne _ _ hr, setForce_out, if_neg hr]

/-- R92: a change g of the outputs behind the reply in w: t has that reply and the outputs of g w. -/
theorem soundAfterReply {v w t : State} {g : State → State} {tag : Byte} (hline : ∀ u : State, (g u).line = u.line)
    (hg : ∀ u : State, u.keepsBut (g u) [.za, .csv, .counters, .draws]) (hreplied : v.replied w tag 9 .ok [])
    (hw : v.keepsBut w [.line, .counters]) (hup : t.line.up = (g w).line.up)
    (hkeeps : (g w).keepsBut t [.line, .counters]) :
    v.replied t tag 9 .ok [] ∧ (∀ r, t.out r = (g w).out r) ∧ (∀ r, w.out r = v.out r) ∧
      v.keepsBut t [.line, .za, .csv, .counters, .draws] := by
  refine ⟨?_, hkeeps.out (by simp), hw.out (by simp), ((hw.append (hg w)).append hkeeps).mono (by decide)⟩
  rw [State.replied, hup, hline]
  exact hreplied

/-- Settles O31: each change answers OK and acts on its one output. -/
theorem forceChanges : Obligations.ForceChanges := by
  intro s dt h o ht v n
  have hvmu : (v.count .mgmtRequests).mu = s.mu := by simp [v]
  have hvout : ∀ r, v.out r = s.out r := out_arrived s dt h
  simp only [← hvout]
  refine ⟨fun ho hallow hf => ?_, fun hallow hf => ?_, ?_, fun ho => ?_⟩
  · obtain ⟨t, w, hrun, hreplied, hw, hup, hkeeps⟩ := request_replied_then (req := 9) (act := State.forceOn h.tag n)
      (g := State.applyOn o) ht
      (by rw [forceOn_output, if_neg (by omega), hvmu, if_pos hallow]) [9, n, 1]
    obtain ⟨hr, hout, hwout, hall⟩ := soundAfterReply (g := State.applyOn o) (by simp)
      (fun u p hq => by cases p <;> simp [State.samePart] at hq ⊢) hreplied hw hup hkeeps
    obtain ⟨hforce, hclaim, hothers⟩ := applyOn_out (s := w) (o := o) (by rw [hwout]; exact hf)
    exact ⟨t, congrArg Host.Outcome.next hrun, hr, by rw [hout, hforce], by rw [hout]; exact hclaim,
      fun r hne => by rw [hout, hothers r hne, hwout], hall⟩
  · obtain ⟨t, w, hrun, hreplied, hw, hup, hkeeps⟩ := request_replied_then (req := 9) (act := State.forceOff h.tag n)
      (g := State.applyOff o) ht
      (by rw [forceOff_output, hvmu, if_pos hallow]) [9, n, 2]
    obtain ⟨hr, hout, hwout, hall⟩ := soundAfterReply (g := State.applyOff o) (by simp)
      (fun u p hq => by cases p <;> simp [State.samePart] at hq ⊢) hreplied hw hup hkeeps
    obtain ⟨hforce, hclaims, hothers⟩ := forceDropped_out w o .off
    rw [State.applyOff, if_neg (by rw [hwout]; exact hf)] at hout
    exact ⟨t, congrArg Host.Outcome.next hrun, hr, by rw [hout, hforce], by rw [hout, hclaims, hwout],
      fun r hne => by rw [hout, hothers r hne, hwout], hall⟩
  · obtain ⟨t, w, hrun, hreplied, hw, hup, hkeeps⟩ := request_replied_then (req := 9) (g := State.applyRelease o) ht
      (forceRelease_output _ _ _) [9, n, 3]
    obtain ⟨hr, hout, hwout, hall⟩ := soundAfterReply (g := State.applyRelease o) (by simp)
      (fun u p hq => by cases p <;> simp [State.samePart] at hq ⊢) hreplied hw hup hkeeps
    obtain ⟨hforce, hclaims, hothers⟩ := forceDropped_out w o .none
    exact ⟨t, congrArg Host.Outcome.next hrun, hr, by rw [hout]; exact hforce, by rw [hout, ← hwout]; exact hclaims,
      fun r hne => by rw [hout, ← hwout]; exact hothers r hne, hall⟩
  · obtain ⟨t, hrun, hanswer⟩ := request_refused (req := 9) (act := State.forceOn h.tag n) ht
      (by rw [forceOn_output, if_pos ho]) [9, n, 1]
    exact ⟨t, congrArg Host.Outcome.next hrun, hanswer⟩

end Sys2Proof.Machine

/-! PROOFS. The statements on reading and on the resynchronisation of a clock line (R130, R131, R177, R179). -/

namespace Sys2Proof.Machine

/-! ## The resynchronisation of a clock line (R130, R131) -/

theorem exec_resyncClock (dt : Nat) (h : Hdr) (n : Byte) (position : Word16) (polarity : Byte) (s : State) :
    exec (.resyncClock dt h n position polarity) s =
      .next (live dt (State.request h ([7, n] ++ enc16 position.toNat ++ [polarity]) fun u =>
        u.takeRequest h.tag 7 (State.resyncClock h.tag n position polarity)) s) := rfl

/-- R130: a request that passes its checks, on the line it names. -/
theorem resyncClock_line {s : State} (tag : Byte) {k : LineNo} {position : Word16} {polarity : Byte}
    (htype : (s.clockCfg k).type ≠ .off) (hpos : position.toNat < (s.clockCfg k).type.dial) (hpol : polarity.toNat ≤ 2) :
    s.resyncClock tag (BitVec.ofNat 8 k.val) position polarity =
      s.takeResync tag k position.toNat (polarityArg polarity) := by
  have hn := toNat_ofNat_fin (by omega) k
  unfold State.resyncClock
  simp only [hn, k.isLt, dite_true]
  rw [if_neg (fun hbad => hbad.elim (by omega) fun hdial => absurd hpos (Nat.not_lt.mpr hdial.2)), if_neg htype]

/-- R130: with no pulse in flight the line takes position and polarity at once, and no other line's store. -/
theorem resync_retained (s : State) (k : LineNo) (i : Nat) (pol : Option Polarity) :
    (s.resync k i pol).retained k = ⟨some i, pol.getD (s.retained k).polarity, true, (s.clockCfg k).type.kept⟩ ∧
    ∀ l, l ≠ k → (s.resync k i pol).retained l = s.retained l := by
  have hrs : ∀ l, (s.resync k i pol).retained l = (s.setRetained k
      { takePending (some (.position i pol)) (s.retained k) with type := (s.clockCfg k).type.kept }).retained l := fun l => by
    simp [State.retained, State.resync]
  refine ⟨by rw [hrs, State.retained_setRetained_self]; rfl, fun l hl => ?_⟩
  rw [hrs, State.retained_setRetained_ne _ _ hl]

theorem resync_appends (s : State) (k : LineNo) (i : Nat) (pol : Option Polarity) : s.appends (s.resync k i pol) :=
  State.appends.trans (t := s.setRetained k
    { takePending (some (.position i pol)) (s.retained k) with type := (s.clockCfg k).type.kept }) (.of_line rfl) (.evaluate _ k)

theorem resync_keepsBut (s : State) (k : LineNo) (i : Nat) (pol : Option Polarity) :
    s.keepsBut (s.resync k i pol) [.line, .cld, .csv, .rs, .counters, .draws] := fun p hp => by
  cases p <;> simp [State.samePart] at hp ⊢

/-- R130, R131: what RESYNC_CLOCK does behind its reply. -/
def State.resyncTaken (s : State) (k : LineNo) (i : Nat) (pol : Option Polarity) : State :=
  let t := s.count .clockResyncs
  if (t.clockLine k).pulse.isSome then t.setClockLine k { t.clockLine k with pending := some (.position i pol) }
  else t.resync k i pol

/-- Settles O42: the request is replied OK, and its owner's change by whether a pulse is in flight. -/
theorem clockResynced : Obligations.ClockResynced := by
  intro s dt h k position polarity ht htype hpos hpol v pol n
  have hact := resyncClock_line (s := v.count .mgmtRequests) h.tag (k := k) (by simpa [v] using htype)
    (by simpa [v] using hpos) hpol
  obtain ⟨t, w, hrun, hreplied, hw, hup, hkeeps⟩ := request_replied_then (req := 7)
    (act := State.resyncClock h.tag n position polarity)
    (g := fun u => u.resyncTaken k position.toNat (polarityArg polarity)) ht (hact.trans rfl)
    ([7, n] ++ enc16 position.toNat ++ [polarity])
  let x := w.count .clockResyncs
  have hx : v.keepsBut x [.line, .counters] :=
    (hw.append (count_keepsBut w .clockResyncs [.counters] (by simp))).mono (by decide)
  have hxline : ∀ l, x.clockLine l = s.clockLine l := fun l => by simp [hx.clockLine, v]
  have hxup : x.line.up = w.line.up := by simp [x]
  refine ⟨fun hp => ?_, fun hp => ?_⟩
  · have htaken : w.resyncTaken k position.toNat (polarityArg polarity) = x.resync k position.toNat (polarityArg polarity) :=
      if_neg (by rw [show (w.count .clockResyncs).clockLine k = _ from hxline k, hp]; simp)
    rw [htaken] at hup hkeeps
    have hretained : ∀ l, t.retained l = (x.resync k position.toNat (polarityArg polarity)).retained l :=
      hkeeps.retained (by simp)
    have hxr : ∀ l, x.retained l = s.retained l := fun l => by simp [hx.retained, v]
    have hxc : x.clockCfg k = s.clockCfg k := by
      simp [State.clockCfg, show x.cld = v.cld from hx .cld (by simp), v]
    obtain ⟨hself, hother⟩ := resync_retained x k position.toNat (polarityArg polarity)
    refine ⟨t, congrArg Host.Outcome.next hrun, repliedFirst_of_appends hreplied
      ((appends_of_up hxup).trans ((resync_appends _ _ _ _).trans (appends_of_up hup))), ?_, fun l hl => ?_,
      ((hx.append (resync_keepsBut _ _ _ _)).append hkeeps).mono (by decide)⟩
    · rw [hretained, hself, hxr, hxc]
      rfl
    · rw [hretained, hother l hl, hxr]
  · have htaken : w.resyncTaken k position.toNat (polarityArg polarity) =
        x.setClockLine k { x.clockLine k with pending := some (.position position.toNat (polarityArg polarity)) } :=
      if_pos (by rw [show (w.count .clockResyncs).clockLine k = _ from hxline k, hp])
    rw [htaken] at hup hkeeps
    have hset : x.keepsBut (x.setClockLine k { x.clockLine k with
        pending := some (.position position.toNat (polarityArg polarity)) }) [.cld] := fun p hq => by
      cases p <;> simp [State.samePart] at hq ⊢
    have hline : ∀ l, t.clockLine l = _ := hkeeps.clockLine (by simp)
    refine ⟨t, congrArg Host.Outcome.next hrun, ?_, ?_, fun l hl => ?_, ((hx.append hset).append hkeeps).mono (by decide)⟩
    · rw [State.replied, show t.line.up = w.line.up from hup.trans hxup]
      exact hreplied
    · rw [hline, State.clockLine_setClockLine_self, hxline]
      rfl
    · rw [hline, State.clockLine_setClockLine_ne _ _ hl, hxline]

/-! ## Reading (R177, R179) -/

theorem exec_ping (dt : Nat) (h : Hdr) (s : State) : exec (.ping dt h) s =
    .next (live dt (State.request h [1] fun u => u.takeRequest h.tag 1 (State.ping h.tag)) s) := rfl

theorem exec_readStatus (dt : Nat) (h : Hdr) (s : State) : exec (.readStatus dt h) s =
    .next (live dt (State.request h [6] fun u => u.takeRequest h.tag 6 (State.status h.tag)) s) := rfl

theorem exec_readTable (dt : Nat) (h : Hdr) (space : Byte) (start : Word16) (count clear : Byte) (s : State) :
    exec (.readTable dt h space start count clear) s =
      .next (live dt (State.request h ([3, space] ++ enc16 start.toNat ++ [count, clear]) fun u =>
        u.takeRequest h.tag 3 (State.readTable h.tag space start count clear)) s) := rfl

@[simp] theorem length_enc8 (n : Nat) : (enc8 n).length = 1 := rfl
@[simp] theorem length_enc16 (n : Nat) : (enc16 n).length = 2 := rfl
@[simp] theorem length_enc24 (n : Nat) : (enc24 n).length = 3 := rfl
@[simp] theorem length_enc32 (n : Nat) : (enc32 n).length = 4 := rfl

/-- R196: the two bytes of the drill id. -/
theorem drillIdBytes_eq (s : State) (n place : Nat) :
    ∃ b1 b2, s.drillIdBytes n place = [b1, b2] ∧ ∀ d, s.fdc.drill = some d → [b1, b2] = enc16 d.id.toNat := by
  unfold State.drillIdBytes
  split
  · next d hd => exact ⟨_, _, rfl, fun e he => by rw [hd] at he; rw [← Option.some.inj he]; rfl⟩
  · next hn => exact ⟨_, _, rfl, fun e he => by rw [hn] at he; cases he⟩

@[simp] theorem length_drillIdBytes (s : State) (n place : Nat) : (s.drillIdBytes n place).length = 2 := by
  obtain ⟨b1, b2, hb, -⟩ := drillIdBytes_eq s n place
  rw [hb]
  rfl

@[simp] theorem length_epochStatus (s : State) (n : Nat) : (s.epochStatus n).length = 1 := by
  unfold State.epochStatus
  split <;> rfl

@[simp] theorem length_cursorStatus (s : State) : s.cursorStatus.length = 6 := by
  unfold State.cursorStatus
  split <;> rfl

@[simp] theorem length_selStatus (s : State) : s.selStatus.length = 3 := rfl

@[simp] theorem length_forceStatus (s : State) : s.forceStatus.length = 6 := by simp [State.forceStatus]

@[simp] theorem length_pageStatus (n place : Nat) (c : Option Call) : (pageStatus n place c).length = 4 := by
  cases c <;> rfl

@[simp] theorem length_allRecords : allRecords.length = 8 := rfl

/-- R196: the eight page records take 32 bytes. -/
@[simp] theorem length_pagesStatus (s : State) (n : Nat) :
    (allRecords.flatMap fun r => pageStatus n (35 + 4 * r.val) (s.call r)).length = 32 := by
  simp

/-- R196: the READ_STATUS record is 77 bytes. -/
theorem length_statusRecord (s : State) (n : Nat) : (s.statusRecord n).length = 77 := by
  unfold State.statusRecord
  simp only [List.length_append, length_enc8, length_enc16, length_enc32, length_epochStatus,
    length_cursorStatus, length_selStatus, length_forceStatus, length_pagesStatus, length_drillIdBytes]

theorem byteAt_append_left {l : List Byte} {i : Nat} (h : i < l.length) (m : List Byte) :
    byteAt (l ++ m) i = byteAt l i := by
  simp [byteAt, List.getElem?_append_left h]

theorem byteAt_append_enc8 {l : List Byte} {i : Nat} (h : l.length = i) (n : Nat) :
    byteAt (l ++ enc8 n) i = BitVec.ofNat 8 n := by
  have := byteAt_append_right l (enc8 n) 0
  rwa [Nat.add_zero, h] at this

/-- R196: fields of the READ_STATUS record, by their offsets. -/
theorem statusRecord_fields (s : State) (n : Nat) :
    (s.statusRecord n).take 2 = enc16 s.mu.addr.toNat ∧ byteAt (s.statusRecord n) 4 = BitVec.ofNat 8 s.tb.quality.code ∧
    ((s.statusRecord n).drop 12).take 2 = enc16 s.tb.linkDelay ∧
    byteAt (s.statusRecord n) 15 = BitVec.ofNat 8 (planCode s.bs.plan) ∧
    byteAt (s.statusRecord n) 67 = BitVec.ofNat 8 s.fdc.fire.code := by
  obtain ⟨e, he⟩ : ∃ e, s.epochStatus n = [e] := List.length_eq_one_iff.mp (length_epochStatus s n)
  unfold State.statusRecord
  refine ⟨?_, ?_, ?_, ?_, ?_⟩
  · simp only [List.append_assoc]
    rfl
  · simp only [List.append_assoc]
    rfl
  · simp only [List.append_assoc, he]
    rfl
  · iterate 13 rw [byteAt_append_left (by simp)]
    exact byteAt_append_enc8 (by simp) _
  · iterate 7 rw [byteAt_append_left (by simp)]
    exact byteAt_append_enc8 (by simp) _

/-- R177, R179: a request answered OK from a state that differs from the arrival's in the counters and the free values drawn
alone. -/
theorem request_drawn {s : State} {dt : Nat} {h : Hdr} {req : Byte} {act : State → State} {results : List Byte}
    (ht : s.takesRequest dt h)
    (hact : act ((s.arrived dt h).count .mgmtRequests) =
      ((s.arrived dt h).count .mgmtRequests).draw.2.reply h.tag req .ok results) (payload : List Byte) :
    ∃ t, live dt (State.request h payload fun u => u.takeRequest h.tag req act) s = t ∧
      (s.arrived dt h).replied t h.tag req .ok results ∧ (s.arrived dt h).keepsBut t [.line, .counters, .draws] := by
  obtain ⟨t, hrun, hreplied, hkeeps⟩ := request_answered ht hact rfl payload
  have hdrawn : (s.arrived dt h).keepsBut ((s.arrived dt h).count .mgmtRequests).draw.2 [.counters, .draws] := fun p hp => by
    cases p <;> simp [State.samePart] at hp ⊢
  exact ⟨t, hrun, hreplied, (hdrawn.append hkeeps).mono (by decide)⟩

/-- R179: a READ_TABLE that passes its checks. -/
theorem readTable_of_good {s : State} {space : Byte} {sp : Space} {start : Word16} {count clear : Byte}
    (hspace : spaceOf space = some sp) (hcount : count ≠ 0) (hstart : start.toNat < sp.records)
    (hclear : clear.getLsbD 0 = true → sp = .counters) (tag : Byte) :
    s.readTable tag space start count clear =
      s.readRecords tag space sp start.toNat count.toNat (clear.getLsbD 0) := by
  rw [State.readTable, hspace]
  dsimp only
  rw [if_neg]
  rintro (h | h | ⟨hc, hne⟩)
  · exact hcount h
  · omega
  · exact hne (hclear hc)

/-- R33: a consumed request leaves what its owner leaves. -/
theorem request_consumed {s : State} {dt : Nat} {h : Hdr} (ht : s.takesRequest dt h)
    (hcons : (s.arrived dt h).consumes h = true) (payload : List Byte) (req : Byte) (act : State → State) :
    live dt (State.request h payload fun u => u.takeRequest h.tag req act) s =
      act ((s.arrived dt h).count .mgmtRequests) := by
  obtain ⟨hhear, hport, hselected, hreset, -⟩ := ht
  rw [live_running hhear.1, request_selected hhear hport hselected, if_pos hcons,
    takeRequest_of_no_reset (by simpa using hreset)]

/-- R179: the state whose counters a read may have cleared. -/
def State.readFrom (s : State) (start n : Nat) (clear : Bool) : State := if clear then s.clearCounters start n else s

theorem clearCounters_counters (s : State) (start n : Nat) (i : Fin 71) :
    (s.clearCounters start n).counters[i] = if start ≤ i.val ∧ i.val < start + n then 0 else s.counters[i] := by
  simp [State.clearCounters]

theorem readFrom_keeps (s : State) (start n : Nat) (clear : Bool) :
    (s.readFrom start n clear).line = s.line ∧ s.keepsBut (s.readFrom start n clear) [.counters] := by
  unfold State.readFrom
  split
  · refine ⟨by simp, fun p hp => ?_⟩
    cases p <;> simp [State.samePart] at hp ⊢
  · exact ⟨rfl, .refl s _⟩

/-- Settles O49: PING and READ_STATUS are replied from a state that draws one free value, READ_TABLE from one whose counters it
may clear. -/
theorem requestsRead : Obligations.RequestsRead := by
  intro s dt h ht v
  let w := v.count .mgmtRequests
  have hw : w.mu = s.mu ∧ w.tb.quality = s.tb.quality ∧ w.tb.linkDelay = s.tb.linkDelay ∧ w.bs = s.bs ∧ w.fdc = s.fdc ∧
      w.line = v.line := by simp [w, v]
  obtain ⟨hmu, hq, hl, hbs, hfdc, hline⟩ := hw
  refine ⟨?_, ?_, ?_⟩
  · obtain ⟨b1, b2, hb, hid⟩ := drillIdBytes_eq w w.draw.1 8
    obtain ⟨t, hrun, hreplied, hkeeps⟩ := request_drawn (act := State.ping h.tag) ht rfl [1]
    refine ⟨t, b1, b2, congrArg Host.Outcome.next hrun, ?_, fun d hd => hid d (by rw [hfdc, hd]), hkeeps⟩
    rw [State.pingResults, hb, hmu, hline, hq, hfdc] at hreplied
    exact hreplied
  · obtain ⟨haddr, hquality, hdelay, hplan, hfire⟩ := statusRecord_fields w w.draw.1
    obtain ⟨t, hrun, hreplied, hkeeps⟩ := request_drawn (act := State.status h.tag) ht rfl [6]
    rw [hmu] at haddr
    rw [hq] at hquality
    rw [hl] at hdelay
    rw [hbs] at hplan
    rw [hfdc] at hfire
    exact ⟨t, _, congrArg Host.Outcome.next hrun, hreplied, length_statusRecord _ _, haddr, hquality, hdelay, hplan, hfire,
      hkeeps⟩
  · intro space sp start count clear hspace hcount hstart hclear n
    have hact := readTable_of_good (s := w) hspace hcount hstart hclear h.tag
    obtain ⟨hfrom, hkept⟩ := readFrom_keeps w start.toNat n (clear.getLsbD 0)
    obtain ⟨t, hrun, hreplied, hkeeps⟩ := request_answered (w := w.readFrom start.toNat n (clear.getLsbD 0)) ht
      (hact.trans rfl) (hfrom.trans hline) ([3, space] ++ enc16 start.toNat ++ [count, clear])
    refine ⟨t, congrArg Host.Outcome.next hrun, hreplied, fun hc hcons i => ?_,
      (((count_keepsBut v .mgmtRequests [.counters] (by simp)).append hkept).append hkeeps).mono (by decide)⟩
    have hroom : (w.readFrom start.toNat n (clear.getLsbD 0)).hasRoom .upNormal = true := by
      rw [hasRoom_of_line (hfrom.trans hline)]
      exact ht.2.2.2.2
    rw [← hrun, request_consumed ht hcons, hact]
    have hcounters := reply_counters_of_room hroom h.tag 3 ([space] ++ enc16 start.toNat ++ enc8 n ++
      (((w.readSpace sp).drop start.toNat).take n).flatten)
    have hread : (w.readRecords h.tag space sp start.toNat count.toNat (clear.getLsbD 0)).counters =
        (w.readFrom start.toNat n (clear.getLsbD 0)).counters := hcounters
    rw [hread, hc, State.readFrom, if_pos rfl, clearCounters_counters]

end Sys2Proof.Machine

/-! PROOFS. The statements on WRITE_TABLE of one record (R43, R45, R59, R62, R63, R93, R118, R132, R140, R150, R159, R180,
R181). -/

namespace Sys2Proof.Machine

/-! ## One record written (R180) -/

/-- R180: one record written into its place. -/
theorem writeRecords_one {α : Type} {n : Nat} (v : Vector α n) {start : Nat} {i : Fin n} (h : start = i.val) (x : α) :
    writeRecords v start [some x] = v.set i x := by
  subst h
  ext j hj
  simp only [writeRecords, Vector.getElem_ofFn, Vector.getElem_set]
  by_cases hij : i.val = j
  · subst hij
    simp
  · rw [if_neg hij]
    split
    · next hle =>
      have hlen : 1 ≤ j - i.val := by omega
      rw [List.getElem?_eq_none (by simpa using hlen)]
      rfl
    · rfl

/-- R180: a write of one valid record passes its checks. -/
theorem writeTable_one {α : Type} {s : State} {sp : Space} {dec : Nat → List Byte → Option α} {start : Word16}
    {data : List Byte} {x : α} (hsave : s.mu.save = none) (hstart : start.toNat < sp.records) (hper : 1 ≤ sp.perWrite)
    (hlen : data.length = sp.bytes) (hdec : dec start.toNat data = some x) (tag : Byte)
    (change : List (Option α) → State → State) :
    s.writeTable tag sp dec none start 1 data change = change [some x] (s.ok tag 4) := by
  have hrefusal : s.writeRefusal sp start.toNat (1 : Byte).toNat data = none := by
    have hone : (1 : Byte).toNat = 1 := rfl
    rw [State.writeRefusal, hone, if_neg (by omega), if_neg (by simp [hsave])]
  have hrecord : recordAt sp.bytes data 0 = data := by simp [recordAt, hlen]
  have hdecode : decodeRecords dec sp.bytes start.toNat (1 : Byte).toNat data = [some x] := by
    rw [decodeRecords, show List.range (1 : Byte).toNat = [0] from rfl, List.map_singleton, hrecord, Nat.add_zero, hdec]
  unfold State.writeTable
  rw [hrefusal]
  dsimp only
  rw [hdecode]
  rfl

/-- R180: what a WRITE_TABLE of one valid record leaves: the reply in w, and behind it the owner's change. -/
theorem writeRequest_one {α : Type} {s : State} {dt : Nat} {h : Hdr} {sp : Space} {dec : Nat → List Byte → Option α}
    {owner : State → Option Status} {start : Word16} {data : List Byte} {x : α} (ht : s.takesRequest dt h)
    (hsave : s.mu.save = none) (howner : owner ((s.arrived dt h).count .mgmtRequests) = none)
    (hstart : start.toNat < sp.records) (hper : 1 ≤ sp.perWrite) (hlen : data.length = sp.bytes)
    (hdec : dec start.toNat data = some x) (space : Byte) (change : List (Option α) → State → State) :
    ∃ t w, s.writeRequest dt h space sp dec owner start 1 data change = .next t ∧
      (s.arrived dt h).replied w h.tag 4 .ok [] ∧ (s.arrived dt h).keepsBut w [.line, .counters] ∧
      t.line.up = (change [some x] w).line.up ∧ (change [some x] w).keepsBut t [.line, .counters] := by
  obtain ⟨t, w, hrun, hanswer⟩ := request_replied_then (req := 4)
    (act := fun u => u.writeTable h.tag sp dec (owner u) start 1 data change) (g := change [some x]) ht
    (by rw [howner]; exact writeTable_one (by simpa using hsave) hstart hper hlen hdec h.tag change)
    (writePayload space start 1 data)
  have hfit : recordsFit data = true := by
    have : sp.bytes ≤ 235 := by
      by_contra hbig
      rw [Space.perWrite, Nat.div_eq_of_lt (by omega)] at hper
      omega
    exact decide_eq_true (by omega)
  refine ⟨t, w, ?_, hanswer⟩
  rw [State.writeRequest, hrun, fits_writePayload, hfit]
  rfl

/-- R180: a change behind the reply in w that leaves the line and the counters, and touches the part of one owner. -/
theorem written_of_quiet {v w u t : State} {tag : Byte} {part : Part} (hreplied : v.replied w tag 4 .ok [])
    (hw : v.keepsBut w [.line, .counters]) (hu : w.keepsBut u [part]) (hline : u.line = w.line)
    (hup : t.line.up = u.line.up) (hkeeps : u.keepsBut t [.line, .counters]) :
    v.replied t tag 4 .ok [] ∧ v.keepsBut t [.line, part, .counters] := by
  refine ⟨?_, ((hw.append hu).append hkeeps).mono ?_⟩
  · rw [State.replied, hup, hline]
    exact hreplied
  · intro p hp
    simp only [List.mem_append, List.mem_cons, List.not_mem_nil, or_false] at hp ⊢
    tauto

/-- R64: what the derivation of the plan leaves, a write of the calendar or of the week behind it. -/
theorem rederive_parts (s : State) :
    s.appends s.rederive ∧ s.rederive.bs.calendar = s.bs.calendar ∧ s.rederive.bs.week = s.bs.week ∧
    (s.tb.quality ≠ .invalid → s.rederive.bs.plan = some (s.rederive.bs.planFor s.tb.day)) ∧
    s.keepsBut s.rederive [.line, .bs, .counters] := by
  unfold State.rederive State.derivePlan
  split
  · next hq => exact ⟨.refl s, rfl, rfl, fun h => absurd hq h, .refl s _⟩
  · dsimp only
    split
    · exact ⟨.of_line rfl, rfl, rfl, fun _ => rfl, fun p hp => by cases p <;> simp [State.samePart] at hp ⊢⟩
    · exact ⟨State.appends.raise { s with bs := { s.bs with plan := some (s.bs.planFor s.tb.day) } } .bell 1 _, by simp,
        by simp, fun _ => by simp [BellScheduler.planFor], fun p hp => by cases p <;> simp [State.samePart] at hp ⊢⟩

/-- R64: a change of the calendar or of the week behind the reply in w, and the plan derived from it. -/
theorem planned_of_rederive {v w u t : State} {tag : Byte} (hreplied : v.replied w tag 4 .ok [])
    (hw : v.keepsBut w [.line, .counters]) (hu : w.keepsBut u [.bs]) (hline : u.line.up = w.line.up)
    (hup : t.line.up = u.rederive.line.up) (hkeeps : u.rederive.keepsBut t [.line, .counters]) :
    v.repliedFirst t tag 4 .ok [] ∧ t.bs.calendar = u.bs.calendar ∧ t.bs.week = u.bs.week ∧
      (v.tb.quality ≠ .invalid → t.bs.plan = some (t.bs.planFor v.tb.day)) ∧ v.keepsBut t [.line, .bs, .counters] := by
  obtain ⟨happends, hcal, hweek, hplan, hderive⟩ := rederive_parts u
  have htbs : t.bs = u.rederive.bs := hkeeps .bs (by simp)
  have htb : u.tb = v.tb := (hw.append hu) .tb (by simp)
  rw [htb] at hplan
  rw [htbs]
  exact ⟨repliedFirst_of_appends hreplied ((appends_of_up hline).trans (happends.trans (appends_of_up hup))), hcal, hweek,
    hplan, (((hw.append hu).append hderive).append hkeeps).mono (by decide)⟩

/-- R62, R64: a write of one record of the calendar. -/
theorem calendar_written {s : State} {dt : Nat} {h : Hdr} {start : Word16} {data : List Byte} (ht : s.takesRequest dt h)
    (hsave : s.mu.save = none) {x : CalendarEntry} {i : Fin 64} (hi : start.toNat = i.val) (hlen : data.length = 4)
    (hdec : decCalendar data = some x) :
    ∃ t, exec (.writeCalendar dt h start 1 data) s = .next t ∧ (s.arrived dt h).repliedFirst t h.tag 4 .ok [] ∧
      t.bs.calendar = s.bs.calendar.set i x ∧ t.bs.week = s.bs.week ∧
      (s.tb.quality ≠ .invalid → t.bs.plan = some (t.bs.planFor s.tb.day)) ∧
      (s.arrived dt h).keepsBut t [.line, .bs, .counters] := by
  obtain ⟨t, w, hrun, hreplied, hw, hup, hkeeps⟩ := writeRequest_one (sp := .calendar) (dec := fun _ => decCalendar)
    (owner := fun _ => none) ht hsave rfl (by rw [hi]; exact i.isLt) (by decide) hlen hdec 2 (State.changeCalendar start.toNat)
  have hbs : w.bs = s.bs := (show _ = (s.arrived dt h).bs from hw .bs (by simp)).trans (by simp)
  obtain ⟨hr, hcal, hweek, hplan, hall⟩ := planned_of_rederive
    (u := { w with bs := { w.bs with calendar := writeRecords w.bs.calendar start.toNat [some x] } }) hreplied hw
    (fun p hp => by cases p <;> simp [State.samePart] at hp ⊢) rfl hup hkeeps
  rw [writeRecords_one _ hi, hbs] at hcal
  rw [hbs] at hweek
  exact ⟨t, hrun, hr, hcal, hweek, fun hq => by simpa using hplan (by simpa using hq), hall⟩

/-- R63, R64: a write of one record of the week. -/
theorem weekplan_written {s : State} {dt : Nat} {h : Hdr} {start : Word16} {data : List Byte} (ht : s.takesRequest dt h)
    (hsave : s.mu.save = none) {x : Plan} {i : Fin 7} (hi : start.toNat = i.val) (hlen : data.length = 1)
    (hdec : decPlan (byteAt data 0) = some x) :
    ∃ t, exec (.writeWeekplan dt h start 1 data) s = .next t ∧ (s.arrived dt h).repliedFirst t h.tag 4 .ok [] ∧
      t.bs.week = s.bs.week.set i x ∧ t.bs.calendar = s.bs.calendar ∧
      (s.tb.quality ≠ .invalid → t.bs.plan = some (t.bs.planFor s.tb.day)) ∧
      (s.arrived dt h).keepsBut t [.line, .bs, .counters] := by
  obtain ⟨t, w, hrun, hreplied, hw, hup, hkeeps⟩ := writeRequest_one (sp := .weekplan) (dec := fun _ => decWeek)
    (owner := fun _ => none) ht hsave rfl (by rw [hi]; exact i.isLt) (by decide) hlen hdec 3 (State.changeWeek start.toNat)
  have hbs : w.bs = s.bs := (show _ = (s.arrived dt h).bs from hw .bs (by simp)).trans (by simp)
  obtain ⟨hr, hcal, hweek, hplan, hall⟩ := planned_of_rederive
    (u := { w with bs := { w.bs with week := writeRecords w.bs.week start.toNat [some x] } }) hreplied hw
    (fun p hp => by cases p <;> simp [State.samePart] at hp ⊢) rfl hup hkeeps
  rw [writeRecords_one _ hi, hbs] at hweek
  rw [hbs] at hcal
  exact ⟨t, hrun, hr, hweek, hcal, fun hq => by simpa using hplan (by simpa using hq), hall⟩

/-- R43: a write of one window. -/
theorem windows_written {s : State} {dt : Nat} {h : Hdr} {start : Word16} {data : List Byte} (ht : s.takesRequest dt h)
    (hsave : s.mu.save = none) {x : Window} {i : Fin 8} (hi : start.toNat = i.val) (hlen : data.length = 7)
    (hdec : decWindow data = some x) :
    ∃ t, exec (.writeWindows dt h start 1 data) s = .next t ∧ (s.arrived dt h).replied t h.tag 4 .ok [] ∧
      t.zm = { s.zm with windows := s.zm.windows.set i x } ∧ (s.arrived dt h).keepsBut t [.line, .zm, .counters] := by
  obtain ⟨t, w, hrun, hreplied, hw, hup, hkeeps⟩ := writeRequest_one (sp := .windows) (dec := fun _ => decWindow)
    (owner := fun _ => none) ht hsave rfl (by rw [hi]; exact i.isLt) (by decide) hlen hdec 4 (State.changeWindows start.toNat)
  obtain ⟨hr, hall⟩ := written_of_quiet (part := .zm) hreplied hw
    (fun p hp => by cases p <;> simp [State.samePart] at hp ⊢) (by simp) hup hkeeps
  have hpart : w.zm = s.zm := (show _ = (s.arrived dt h).zm from hw .zm (by simp)).trans (by simp)
  refine ⟨t, hrun, hr, ?_, hall⟩
  rw [show t.zm = _ from hkeeps .zm (by simp), State.changeWindows]
  dsimp only
  rw [hpart, writeRecords_one _ hi]

/-- R93: a write of one tone pattern. -/
theorem tones_written {s : State} {dt : Nat} {h : Hdr} {start : Word16} {data : List Byte} (ht : s.takesRequest dt h)
    (hsave : s.mu.save = none) {x : TonePattern} {i : Fin 16} (hi : start.toNat = i.val) (hlen : data.length = 42)
    (hdec : decTone data = some x) :
    ∃ t, exec (.writeTones dt h start 1 data) s = .next t ∧ (s.arrived dt h).replied t h.tag 4 .ok [] ∧
      t.za = { s.za with tones := s.za.tones.set i x } ∧ (s.arrived dt h).keepsBut t [.line, .za, .counters] := by
  obtain ⟨t, w, hrun, hreplied, hw, hup, hkeeps⟩ := writeRequest_one (sp := .tones) (dec := fun _ => decTone)
    (owner := fun _ => none) ht hsave rfl (by rw [hi]; exact i.isLt) (by decide) hlen hdec 6 (State.changeTones start.toNat)
  obtain ⟨hr, hall⟩ := written_of_quiet (part := .za) hreplied hw
    (fun p hp => by cases p <;> simp [State.samePart] at hp ⊢) (by simp) hup hkeeps
  have hpart : w.za = s.za := (show _ = (s.arrived dt h).za from hw .za (by simp)).trans (by simp)
  refine ⟨t, hrun, hr, ?_, hall⟩
  rw [show t.za = _ from hkeeps .za (by simp), State.changeTones]
  dsimp only
  rw [hpart, writeRecords_one _ hi]

/-- R159: a write of one drill program. -/
theorem drillprog_written {s : State} {dt : Nat} {h : Hdr} {start : Word16} {data : List Byte} (ht : s.takesRequest dt h)
    (hsave : s.mu.save = none) {x : DrillProg} {i : Fin 4} (hi : start.toNat = i.val) (hlen : data.length = 11)
    (hdec : decDrill data = some x) :
    ∃ t, exec (.writeDrillprog dt h start 1 data) s = .next t ∧ (s.arrived dt h).replied t h.tag 4 .ok [] ∧
      t.fdc = { s.fdc with programs := s.fdc.programs.set i x } ∧ (s.arrived dt h).keepsBut t [.line, .fdc, .counters] := by
  obtain ⟨t, w, hrun, hreplied, hw, hup, hkeeps⟩ := writeRequest_one (sp := .drillprog) (dec := fun _ => decDrill)
    (owner := fun _ => none) ht hsave rfl (by rw [hi]; exact i.isLt) (by decide) hlen hdec 9 (State.changeDrills start.toNat)
  obtain ⟨hr, hall⟩ := written_of_quiet (part := .fdc) hreplied hw
    (fun p hp => by cases p <;> simp [State.samePart] at hp ⊢) (by simp) hup hkeeps
  have hpart : w.fdc = s.fdc := (show _ = (s.arrived dt h).fdc from hw .fdc (by simp)).trans (by simp)
  refine ⟨t, hrun, hr, ?_, hall⟩
  rw [show t.fdc = _ from hkeeps .fdc (by simp), State.changeDrills]
  dsimp only
  rw [hpart, writeRecords_one _ hi]

/-- R59: a write of one entry of the standby bank B. -/
theorem sched_written {s : State} {dt : Nat} {h : Hdr} {start : Word16} {data : List Byte} (ht : s.takesRequest dt h)
    (hsave : s.mu.save = none) {x : SchedEntry} {i : Fin 256} (hi : start.toNat = i.val) (hlen : data.length = 14)
    (hdec : decSched data = some x) (hactive : s.bs.active = .a) (hpending : s.bs.pendingSwap = false) :
    ∃ t, exec (.writeSched dt h .b start 1 data) s = .next t ∧ (s.arrived dt h).replied t h.tag 4 .ok [] ∧
      t.bs = { s.bs with bankB := s.bs.bankB.set i x } ∧ (s.arrived dt h).keepsBut t [.line, .bs, .counters] := by
  obtain ⟨t, w, hrun, hreplied, hw, hup, hkeeps⟩ := writeRequest_one (sp := .sched .b) (dec := fun _ => decSched)
    (owner := fun t => t.schedRefusal .b) ht hsave (by simp [State.schedRefusal, hactive, hpending])
    (by rw [hi]; exact i.isLt) (by decide) hlen hdec (BitVec.ofNat 8 (bankCode .b)) (State.changeSched .b start.toNat)
  obtain ⟨hr, hall⟩ := written_of_quiet (part := .bs) hreplied hw
    (fun p hp => by cases p <;> simp [State.samePart] at hp ⊢) (by simp) hup hkeeps
  have hbs : w.bs = s.bs := (show _ = (s.arrived dt h).bs from hw .bs (by simp)).trans (by simp)
  refine ⟨t, hrun, hr, ?_, hall⟩
  rw [show t.bs = _ from hkeeps .bs (by simp), State.changeSched]
  dsimp only
  rw [hbs, writeRecords_one _ hi]

/-- Settles O51: each write is one record into its place, and the calendar and the week derive the plan behind it. -/
theorem tablesWritten : Obligations.TablesWritten := by
  intro s dt h start data ht hsave v
  exact ⟨fun _ _ hi hlen hdec hactive hpending => sched_written ht hsave hi hlen hdec hactive hpending,
    fun _ _ hi hlen hdec => calendar_written ht hsave hi hlen hdec,
    fun _ _ hi hlen hdec => weekplan_written ht hsave hi hlen hdec,
    fun _ _ hi hlen hdec => windows_written ht hsave hi hlen hdec,
    fun _ _ hi hlen hdec => tones_written ht hsave hi hlen hdec,
    fun _ _ hi hlen hdec => drillprog_written ht hsave hi hlen hdec⟩

end Sys2Proof.Machine

/-! PROOFS. The statement on the spaces whose owner acts at once on a WRITE_TABLE (R45, R85, R118, R132, R133, R140, R150,
R181). -/

namespace Sys2Proof.Machine

/-! ## NODECFG (R181) -/

theorem changeNode_one (s : State) (x : NodeCfg) : (s.changeNode 0 [some x]).mu = { s.mu with node := x } ∧
    (s.changeNode 0 [some x]).tb = { s.tb with linkDelay := if s.tb.sampleTaken then s.tb.linkDelay else x.linkDelay } := by
  have hn : (writeRecords #v[s.mu.node] 0 [some x])[0] = x := by
    simp [writeRecords]
  unfold State.changeNode
  dsimp only
  rw [hn]
  split
  · next h => exact ⟨rfl, by simp⟩
  · exact ⟨rfl, rfl⟩

theorem nodecfg_written {s : State} {dt : Nat} {h : Hdr} {data : List Byte} (ht : s.takesRequest dt h)
    (hsave : s.mu.save = none) {x : NodeCfg} (hlen : data.length = 17) (hdec : decNode data = some x) :
    ∃ t, exec (.writeNodecfg dt h 0 1 data) s = .next t ∧ (s.arrived dt h).replied t h.tag 4 .ok [] ∧
      t.mu = { s.mu with node := x } ∧
      t.tb = { (s.arrived dt h).tb with linkDelay := if s.tb.sampleTaken then s.tb.linkDelay else x.linkDelay } ∧
      (s.arrived dt h).keepsBut t [.line, .tb, .mu, .counters] := by
  obtain ⟨t, w, hrun, hreplied, hw, hup, hkeeps⟩ := writeRequest_one (start := 0) (sp := .nodecfg) (dec := fun _ => decNode)
    (owner := fun _ => none) ht hsave rfl (by decide) (by decide) hlen hdec 10 (State.changeNode 0)
  obtain ⟨hmu, htb⟩ := changeNode_one w x
  have hset : w.keepsBut (w.changeNode 0 [some x]) [.tb, .mu] := fun p hp => by
    cases p <;> simp [State.samePart] at hp ⊢
  have hwmu : w.mu = s.mu := (show _ = (s.arrived dt h).mu from hw .mu (by simp)).trans (by simp)
  have hwtb : w.tb = (s.arrived dt h).tb := hw .tb (by simp)
  refine ⟨t, hrun, ?_, by rw [show t.mu = _ from hkeeps .mu (by simp), hmu, hwmu], ?_,
    ((hw.append hset).append hkeeps).mono (by decide)⟩
  · rw [State.replied, hup, (State.changeNode_keeps _ _ _).2.2.2.1]
    exact hreplied
  · rw [show t.tb = _ from hkeeps .tb (by simp), htb, hwtb]
    simp

/-! ## ZONEATTR (R45, R85) -/

theorem changeAttrs_one {s : State} {start : Nat} {i : Output} (hi : start = i.val) (x : ZoneAttr) :
    (s.changeAttrs start [some x]).zm = { s.zm with attrs := s.zm.attrs.set i x } ∧
    ∀ o, ((s.changeAttrs start [some x]).out o).claims = (s.out o).claims := by
  unfold State.changeAttrs
  rw [writeRecords_one _ hi]
  dsimp only
  split
  · exact ⟨by simp, fun o => (rechooseAll_out _ _ o).1⟩
  · exact ⟨rfl, fun o => rfl⟩

theorem zoneattr_written {s : State} {dt : Nat} {h : Hdr} {start : Word16} {data : List Byte} (ht : s.takesRequest dt h)
    (hsave : s.mu.save = none) {x : ZoneAttr} {i : Output} (hi : start.toNat = i.val) (hlen : data.length = 7)
    (hdec : decAttr i.val data = some x) :
    ∃ t, exec (.writeZoneattr dt h start 1 data) s = .next t ∧ (s.arrived dt h).replied t h.tag 4 .ok [] ∧
      t.zm = { s.zm with attrs := s.zm.attrs.set i x } ∧ (∀ o, (t.out o).claims = (s.out o).claims) ∧
      (s.arrived dt h).keepsBut t [.line, .zm, .za, .csv, .counters, .draws] := by
  obtain ⟨t, w, hrun, hreplied, hw, hup, hkeeps⟩ := writeRequest_one (sp := .zoneattr) (dec := decAttr)
    (owner := fun _ => none) ht hsave rfl (by rw [hi]; exact i.isLt) (by decide) hlen (hi ▸ hdec) 5
    (State.changeAttrs start.toNat)
  obtain ⟨hzm, hclaims⟩ := changeAttrs_one (s := w) hi x
  have hset : w.keepsBut (w.changeAttrs start.toNat [some x]) [.zm, .za, .csv, .counters, .draws] := fun p hp => by
    cases p <;> simp [State.samePart] at hp ⊢
  have hwzm : w.zm = s.zm := (show _ = (s.arrived dt h).zm from hw .zm (by simp)).trans (by simp)
  refine ⟨t, hrun, ?_, by rw [show t.zm = _ from hkeeps .zm (by simp), hzm, hwzm], fun o => ?_,
    ((hw.append hset).append hkeeps).mono (by decide)⟩
  · rw [State.replied, hup, (State.changeAttrs_keeps _ _ _).2.2.2.1]
    exact hreplied
  · rw [hkeeps.out (by simp), hclaims, hw.out (by simp), out_arrived]

/-! ## SUPCFG (R140, R150) -/

theorem circ_disable (s : State) (c d : Circuit) : (s.disable c).circ d = if d = c then .fresh else s.circ d := by
  unfold State.disable
  split
  · exact circ_leaveFault s c .fresh .disabled d
  · exact circ_setCirc s c .fresh d

theorem cfg_disable (s : State) (c : Circuit) : (s.disable c).csv.cfg = s.csv.cfg := by
  unfold State.disable State.leaveFault State.faultLeft isolationLifted
  dsimp only
  (repeat' split) <;> simp [State.setCirc]

theorem disable_appends (s : State) (c : Circuit) : s.appends (s.disable c) := by
  unfold State.disable
  exact .ite (leaveFault_appends _ _ _ _) (.of_line rfl)

theorem circ_foldl_disable (cs : List Circuit) (s : State) (d : Circuit) :
    (cs.foldl State.disable s).circ d = if d ∈ cs then .fresh else s.circ d := by
  induction cs generalizing s with
  | nil => simp
  | cons c cs ih =>
    rw [List.foldl_cons, ih, circ_disable]
    by_cases hd : d ∈ cs <;> by_cases hc : d = c <;> simp [hd, hc]

/-- The state whose circuit configuration has been written, before the circuits disabled leave FAULT (R150). -/
def State.withSups (s : State) (cfg : Vector SupCfg 32) : State :=
  { s with csv := { s.csv with cfg := cfg, scan := .idle } }

/-- R150: the circuits that a write disables. -/
def State.disabledBy (s : State) (cfg : Vector SupCfg 32) : List Circuit :=
  allCircuits.filter fun c => (s.supCfg c).enabled && !cfg[c].enabled

/-- R150: what a write of the circuit configuration does to the records, and to UP normal. -/
theorem changeSups_parts (s : State) (start : Nat) (rs : List (Option SupCfg)) :
    let cfg := writeRecords s.csv.cfg start rs
    (s.changeSups start rs).csv.cfg = cfg ∧ s.appends (s.changeSups start rs) ∧
    ∀ d, (s.changeSups start rs).circ d = if (s.supCfg d).enabled && !cfg[d].enabled then .fresh else s.circ d := by
  intro cfg
  have hrun : ∃ b, s.changeSups start rs =
      ((s.disabledBy cfg).foldl State.disable (s.withSups cfg)).scanAfterWrite s.csv.scan b := ⟨_, rfl⟩
  obtain ⟨b, hrun⟩ := hrun
  rw [hrun]
  clear_value cfg
  refine ⟨?_, ?_, fun d => ?_⟩
  · rw [(scanAfterWrite_csv _ _ _).2, foldl_part (fun s => s.csv.cfg) cfg_disable]
    rfl
  · exact State.appends.trans (t := s.withSups cfg) (.of_line rfl)
      ((State.appends.foldl disable_appends (s.disabledBy cfg) (s.withSups cfg)).trans (appends_of_up (by simp)))
  · rw [circ_of_records (scanAfterWrite_csv _ _ _).1, circ_foldl_disable]
    have hmem : d ∈ s.disabledBy cfg ↔ ((s.supCfg d).enabled && !cfg[d].enabled) = true := by
      simp [State.disabledBy, allCircuits]
    by_cases hd : ((s.supCfg d).enabled && !cfg[d].enabled) = true
    · rw [if_pos (hmem.mpr hd), if_pos hd]
    · rw [if_neg fun h => hd (hmem.mp h), if_neg hd]
      rfl

theorem supcfg_written {s : State} {dt : Nat} {h : Hdr} {start : Word16} {data : List Byte} (ht : s.takesRequest dt h)
    (hsave : s.mu.save = none) {x : SupCfg} {i : Circuit} (hi : start.toNat = i.val) (hlen : data.length = 7)
    (hdec : decSup i.val data = some x) :
    ∃ t, exec (.writeSupcfg dt h start 1 data) s = .next t ∧ (s.arrived dt h).repliedFirst t h.tag 4 .ok [] ∧
      t.csv.cfg = s.csv.cfg.set i x ∧ (∀ c, c ≠ i → t.circ c = s.circ c) ∧
      ((s.supCfg i).enabled = true → x.enabled = false → t.circ i = CircRecord.fresh) ∧
      ((s.supCfg i).enabled = x.enabled → t.circ i = s.circ i) ∧
      (s.arrived dt h).keepsBut t [.line, .za, .cld, .csv, .counters, .draws] := by
  obtain ⟨t, w, hrun, hreplied, hw, hup, hkeeps⟩ := writeRequest_one (sp := .supcfg) (dec := decSup)
    (owner := fun _ => none) ht hsave rfl (by rw [hi]; exact i.isLt) (by decide) hlen (hi ▸ hdec) 8
    (State.changeSups start.toNat)
  have hset : w.keepsBut (w.changeSups start.toNat [some x]) [.line, .za, .cld, .csv, .counters, .draws] := fun p hp => by
    cases p <;> simp [State.samePart] at hp ⊢
  have hcsv : w.csv = (s.arrived dt h).csv := hw .csv (by simp)
  have hcfg : w.csv.cfg = s.csv.cfg := by simp [hcsv]
  have hsup : ∀ d, w.supCfg d = s.supCfg d := fun d => by rw [State.supCfg, hcfg, State.supCfg]
  have hcirc : ∀ d, w.circ d = s.circ d := fun d => by simp [hw.circ]
  obtain ⟨hwritten, happends, hrecords⟩ := changeSups_parts w start.toNat [some x]
  rw [writeRecords_one _ hi, hcfg] at hwritten
  simp only [writeRecords_one _ hi, hcfg, hsup, hcirc] at hrecords
  have htcirc : ∀ d, t.circ d = _ := fun d => (hkeeps.circ (by simp) d).trans (hrecords d)
  refine ⟨t, hrun, repliedFirst_of_appends hreplied (happends.trans (appends_of_up hup)),
    by rw [show t.csv = _ from hkeeps .csv (by simp), hwritten], fun c hc => ?_, fun hon hoff => ?_, fun hsame => ?_,
    ((hw.append hset).append hkeeps).mono (by decide)⟩
  · have hother : (s.csv.cfg.set i x)[c] = s.supCfg c := by
      have : i.val ≠ c.val := fun e => hc (Fin.ext e.symm)
      simp [this, State.supCfg]
    rw [htcirc, hother]
    simp
  · rw [htcirc]
    simp [hon, hoff]
  · rw [htcirc]
    simp [hsame]

/-! ## CLOCKCFG (R118, R132, R133) -/

/-- The state whose line configuration has been written, before the lines act on their changes (R132). -/
def State.withClocks (s : State) (cfg : Vector ClockCfg 8) : State := { s with cld := { s.cld with cfg := cfg } }

/-- R132, R133: a line whose record has not changed does nothing. -/
theorem clockCfgChanged_same {s : State} {k : LineNo} {old : ClockCfg} (h : s.clockCfg k = old) :
    State.clockCfgChanged k old s = s := by simp [State.clockCfgChanged, h]

theorem cfg_clockCfgChanged (s : State) (k : LineNo) (old : ClockCfg) :
    (State.clockCfgChanged k old s).cld.cfg = s.cld.cfg := by
  unfold State.clockCfgChanged State.typeChange
  dsimp only
  (repeat' split) <;> simp

/-- Of a fold over lines of which one alone acts, that line's act is left. -/
theorem foldl_only {g : State → LineNo → State} {P : State → Prop} {i : LineNo} (hother : ∀ s k, P s → k ≠ i → g s k = s)
    (hkeep : ∀ s k, P s → P (g s k)) {ls : List LineNo} (hnd : ls.Nodup) {s : State} (hs : P s) :
    ls.foldl g s = if i ∈ ls then g s i else s := by
  induction ls generalizing s with
  | nil => rfl
  | cons k ls ih =>
    obtain ⟨hk, hls⟩ := List.nodup_cons.mp hnd
    rw [List.foldl_cons, ih hls (hkeep s k hs)]
    by_cases hki : k = i
    · subst hki
      rw [if_neg hk, if_pos (by simp)]
    · rw [hother s k hs hki]
      simp [Ne.symm hki]

/-- R132: a write of one line's record is the change of that line. -/
theorem changeClocks_one {s : State} {start : Nat} {i : LineNo} (hi : start = i.val) (x : ClockCfg) :
    s.changeClocks start [some x] = State.clockCfgChanged i (s.clockCfg i) (s.withClocks (s.cld.cfg.set i x)) := by
  unfold State.changeClocks
  rw [writeRecords_one _ hi]
  have honly := foldl_only (g := fun t k => State.clockCfgChanged k (s.clockCfg k) t) (i := i)
    (P := fun t => t.cld.cfg = s.cld.cfg.set i x) (fun t k ht hk => ?_) (fun t k ht => (cfg_clockCfgChanged t k _).trans ht)
    allLines_nodup (s := s.withClocks (s.cld.cfg.set i x)) rfl
  · rw [if_pos (mem_allLines i)] at honly
    exact honly
  · have hne : i.val ≠ k.val := fun e => hk (Fin.ext e.symm)
    exact clockCfgChanged_same (by simp [State.clockCfg, ht, hne])

/-- R132, R133: what a line does of a write of its record. -/
theorem clockCfgChanged_parts (s : State) (k : LineNo) (old : ClockCfg) :
    s.appends (State.clockCfgChanged k old s) ∧
    ((s.clockCfg k).type ≠ old.type → (s.clockLine k).pulse = none →
      ((State.clockCfgChanged k old s).retained k).position = none ∧
      ((State.clockCfgChanged k old s).retained k).valid = false ∧
      ((State.clockCfgChanged k old s).retained k).type = (s.clockCfg k).type.kept) ∧
    ((s.clockCfg k).type = old.type → (State.clockCfgChanged k old s).rs = s.rs) := by
  unfold State.clockCfgChanged
  split
  · next hne =>
    unfold State.typeChange
    dsimp only
    split
    · next hp => exact ⟨.of_line rfl, fun _ hn => by simp [hn] at hp, fun he => absurd he hne⟩
    · refine ⟨State.appends.trans (.of_line rfl) (.evaluate _ k), fun _ _ => ?_, fun he => absurd he hne⟩
      simp [State.retained, State.setRetained, State.clockCfg]
  · next he =>
    split
    · exact ⟨.evaluate s k, fun hne => absurd (not_not.mp he) hne, fun _ => by simp⟩
    · exact ⟨.refl s, fun hne => absurd (not_not.mp he) hne, fun _ => rfl⟩

theorem clockcfg_written {s : State} {dt : Nat} {h : Hdr} {start : Word16} {data : List Byte} (ht : s.takesRequest dt h)
    (hsave : s.mu.save = none) {x : ClockCfg} {i : LineNo} (hi : start.toNat = i.val) (hlen : data.length = 9)
    (hdec : decClock data = some x) :
    ∃ t, exec (.writeClockcfg dt h start 1 data) s = .next t ∧ (s.arrived dt h).repliedFirst t h.tag 4 .ok [] ∧
      t.cld.cfg = s.cld.cfg.set i x ∧
      (x.type ≠ (s.clockCfg i).type → (s.clockLine i).pulse = none →
        (t.retained i).position = none ∧ (t.retained i).valid = false ∧ (t.retained i).type = x.type.kept) ∧
      (x.type = (s.clockCfg i).type → t.rs = s.rs) ∧
      (s.arrived dt h).keepsBut t [.line, .cld, .csv, .rs, .counters, .draws] := by
  obtain ⟨t, w, hrun, hreplied, hw, hup, hkeeps⟩ := writeRequest_one (sp := .clockcfg) (dec := fun _ => decClock)
    (owner := fun _ => none) ht hsave rfl (by rw [hi]; exact i.isLt) (by decide) hlen hdec 7
    (State.changeClocks start.toNat)
  have hset : w.keepsBut (w.changeClocks start.toNat [some x]) [.line, .cld, .csv, .rs, .counters, .draws] := fun p hp => by
    cases p <;> simp [State.samePart] at hp ⊢
  have hcld : w.cld = s.cld := (show _ = (s.arrived dt h).cld from hw .cld (by simp)).trans (by simp)
  have hwrs : w.rs = s.rs := (show _ = (s.arrived dt h).rs from hw .rs (by simp)).trans (by simp)
  have hold : w.clockCfg i = s.clockCfg i := by rw [State.clockCfg, hcld, State.clockCfg]
  rw [changeClocks_one hi, hold, hcld] at hup hkeeps hset
  let u := w.withClocks (s.cld.cfg.set i x)
  have hnew : u.clockCfg i = x := by simp [u, State.withClocks, State.clockCfg]
  have hline : u.clockLine i = s.clockLine i := by simp [u, State.withClocks, State.clockLine, hcld]
  obtain ⟨happends, htype, hkept⟩ := clockCfgChanged_parts u i (s.clockCfg i)
  rw [hnew, hline] at htype
  rw [hnew] at hkept
  refine ⟨t, hrun, repliedFirst_of_appends hreplied
    (State.appends.trans (t := u) (.of_line rfl) (happends.trans (appends_of_up hup))), ?_, fun hne hp => ?_, fun he => ?_,
    ((hw.append hset).append hkeeps).mono (by decide)⟩
  · rw [show t.cld = _ from hkeeps .cld (by simp), cfg_clockCfgChanged]
    rfl
  · rw [hkeeps.retained (by simp)]
    exact htype hne hp
  · rw [show t.rs = _ from hkeeps .rs (by simp)]
    exact (hkept he).trans hwrs

/-- Settles O52: each write is one record into its place, and what its owner does of it. -/
theorem settingsWritten : Obligations.SettingsWritten := by
  intro s dt h start data ht hsave v
  refine ⟨fun _ _ hi hlen hdec => zoneattr_written ht hsave hi hlen hdec,
    fun _ _ hi hlen hdec => clockcfg_written ht hsave hi hlen hdec,
    fun _ _ hi hlen hdec => supcfg_written ht hsave hi hlen hdec, fun x hi hlen hdec => ?_⟩
  subst hi
  exact nodecfg_written ht hsave hlen hdec

end Sys2Proof.Machine

/-! PROOFS. The statements on winners, the plan of day, the windows and SELECT (R44, R50, R53 to R55, R57, R64, R84), with what a
matched downstream frame leaves (R32). -/

namespace Sys2Proof.Machine

/-! ## The claim chosen (R84) -/

theorem leading_eq_none {l : List Claim} : leading l = none ↔ l = [] := by
  cases l with
  | nil => simp [leading]
  | cons c cs =>
    unfold leading
    (repeat' split) <;> simp

/-- Settles O30, by induction on the list from its tail: a claim leads those behind it where none of them is lower. -/
theorem leadingIsLowest : Obligations.LeadingIsLowest := by
  intro l
  induction l with
  | nil =>
    intro c h
    cases h
  | cons x xs ih =>
    intro c h
    unfold leading at h
    split at h
    · next hnone =>
      obtain rfl := Option.some.inj h
      exact ⟨[], xs, rfl, by simp, by simp [leading_eq_none.mp hnone]⟩
    · next d hd =>
      obtain ⟨before, after, hsplit, hbefore, hafter⟩ := ih d hd
      split at h
      · next hle =>
        obtain rfl := Option.some.inj h
        refine ⟨[], xs, rfl, by simp, fun e he => hle.trans ?_⟩
        obtain hin | rfl | hin : e ∈ before ∨ e = d ∨ e ∈ after := by simpa [hsplit] using he
        · exact (hbefore e hin).le
        · exact le_rfl
        · exact hafter e hin
      · next hlt =>
        obtain rfl := Option.some.inj h
        refine ⟨x :: before, after, by rw [hsplit]; rfl, fun e he => ?_, hafter⟩
        obtain rfl | hin := List.mem_cons.mp he
        · omega
        · exact hbefore e hin

/-! ## The plan of day (R64) -/

/-- Settles O29: a search of the calendar finds its first entry of the day. -/
theorem planOfDay : Obligations.PlanOfDay := by
  intro b day
  constructor
  · intro i hvalid hdate hbefore
    have hfind : b.calendar.toList.find? (fun e => e.valid && decide (e.date = day)) = some b.calendar[i] := by
      rw [List.find?_eq_some_iff_getElem]
      refine ⟨by simpa using ⟨hvalid, hdate⟩, i.val, by simp, by simp, fun j hj => ?_⟩
      have := hbefore ⟨j, by omega⟩ hj
      simpa [imp_iff_not_or] using this
    rw [BellScheduler.planFor, hfind]
  · intro hnone d hd
    have hfind : b.calendar.toList.find? (fun e => e.valid && decide (e.date = day)) = none := by
      rw [List.find?_eq_none]
      intro e he
      obtain ⟨j, hj, rfl⟩ := List.getElem_of_mem he
      have := hnone ⟨j, by simpa using hj⟩
      simpa using this
    rw [BellScheduler.planFor, hfind]
    simp [hd]

/-! ## The windows (R44, R50, R57) -/

theorem indexHit_ne_notLocal (kind : OutputKind) (index : Nat) : indexHit kind index ≠ .notLocal := by
  unfold indexHit
  cases kind <;> dsimp only <;> split <;> simp

/-- R44: a zone that no window covers is not local, and no other. -/
theorem searchZone_eq_notLocal {kind : OutputKind} {z : Nat} {ws : List Window} :
    searchZone kind z ws = .notLocal ↔ ∀ w ∈ ws, w.covers kind z = false := by
  induction ws with
  | nil => simp [searchZone]
  | cons w ws ih =>
    rw [searchZone, List.forall_mem_cons]
    cases h : w.covers kind z with
    | false => simpa using ih
    | true => simpa using indexHit_ne_notLocal _ _

/-- R44: the first window that covers the zone decides. -/
theorem searchZone_first {kind : OutputKind} {z : Nat} {before : List Window} (after : List Window) {w : Window}
    (hbefore : ∀ x ∈ before, x.covers kind z = false) (hw : w.covers kind z = true) :
    searchZone kind z (before ++ w :: after) = indexHit kind (w.base + (z - w.start)) := by
  induction before with
  | nil => simp [searchZone, hw]
  | cons x before ih =>
    rw [List.forall_mem_cons] at hbefore
    rw [List.cons_append, searchZone, hbefore.1]
    simpa using ih hbefore.2

theorem dropped_le (m : ZoneMap) (bells : Bool) (lo hi : Nat) : m.dropped bells lo hi ≤ hi + 1 - lo := by
  have := List.length_filter_le (fun i => decide (searchZone .speaker (lo + i) m.windows.toList = .overflow) ||
    (bells && decide (searchZone .bell (lo + i) m.windows.toList = .overflow))) (List.range (hi + 1 - lo))
  simpa [ZoneMap.dropped] using this

/-- R57: the searches for SPEAKER drop no zone that the searches for BELL do not. -/
theorem dropped_page_le (m : ZoneMap) (lo hi : Nat) : m.dropped false lo hi ≤ m.dropped true lo hi := by
  refine List.Sublist.length_le (List.monotone_filter_right _ fun i hi => ?_)
  simp only [Bool.false_and, Bool.or_false] at hi
  simp [hi]

theorem dropped_eq_zero {m : ZoneMap} {lo hi : Nat} : m.dropped true lo hi = 0 ↔
    ∀ z, lo ≤ z → z ≤ hi → searchZone .bell z m.windows.toList ≠ .overflow ∧
      searchZone .speaker z m.windows.toList ≠ .overflow := by
  rw [ZoneMap.dropped, List.length_eq_zero_iff, List.filter_eq_nil_iff]
  simp only [List.mem_range, Bool.true_and, Bool.or_eq_true, decide_eq_true_eq, not_or]
  constructor
  · intro h z hlo hhi
    have := h (z - lo) (by omega)
    rw [Nat.add_sub_cancel' hlo] at this
    exact this.symm
  · intro h i hi
    exact (h (lo + i) (by omega) (by omega)).symm

/-- R49, R50: the zones dropped by the outputs gathered for a target: those of a RANGE. -/
theorem gather_overflow (m : ZoneMap) (bells : Bool) (t : Target) :
    (m.gather bells t).overflow = if t.mode = 0 then m.dropped bells t.lo t.hi else 0 := by
  unfold ZoneMap.gather
  dsimp only
  (repeat' split) <;> rfl

theorem resolveBell_overflow (m : ZoneMap) (t : Target) (quietToo : Bool) :
    (m.resolveBell t quietToo).overflow = if t.bad then 0 else (m.gather true t).overflow := by
  unfold ZoneMap.resolveBell
  split <;> rfl

theorem resolvePage_overflow (m : ZoneMap) (t : Target) :
    (m.resolvePage t).overflow = if t.bad then 0 else (m.gather false t).overflow := by
  unfold ZoneMap.resolvePage
  split <;> rfl

/-- Settles O26: the search by its recursion, the counts by the range they filter. -/
theorem firstWindowDecides : Obligations.FirstWindowDecides := by
  refine ⟨fun kind z ws => ⟨searchZone_eq_notLocal, fun before after w hws hbefore hw => ?_⟩, fun m t quietToo => ⟨?_, ?_, ?_⟩⟩
  · rw [hws]
    exact searchZone_first after hbefore hw
  · rw [resolveBell_overflow, gather_overflow]
    have := dropped_le m true t.lo t.hi
    (repeat' split) <;> omega
  · rw [resolveBell_overflow, resolvePage_overflow, gather_overflow, gather_overflow]
    have := dropped_page_le m t.lo t.hi
    (repeat' split) <;> omega
  · intro hbad hmode
    rw [resolveBell_overflow, gather_overflow, hbad, if_neg (by simp), if_pos hmode]
    exact dropped_eq_zero

/-! ## Matched downstream frames (R32) -/

/-- R32: a matched frame leaves what its owner leaves, behind its copy for DOWN. -/
theorem selective_owner {s : State} {dt : Nat} {h : Hdr} (hc : s.canHear .up) (hp : h.port = .up)
    (hsel : (s.arrived dt h).selected h = true) (kind : Byte) (payload : List Byte) (owner : State → State) :
    ∃ t, live dt (fun t => t.selective kind h payload owner) s = t ∧ t.line.up = (owner (s.arrived dt h)).line.up ∧
      (owner (s.arrived dt h)).keepsBut t [.line, .counters] := by
  refine ⟨_, rfl, ?_⟩
  have hrun := receive_proper (s := s) (h := h) (act := fun t =>
    (if t.selected h then owner t else t).copyDown .downNormal (h.frame kind payload) t.localCount .relayDown)
    (by rw [hp]; exact hc) dt
  rw [hp] at hrun
  rw [live_running hc.1, State.selective, hrun, if_pos hsel]
  exact ⟨copyDown_normal_line_up _ _ _ _, copyDown_keepsBut _ _ _ _ _⟩

/-! ## SELECT (R53 to R55) -/

theorem exec_select {payload : List Byte} (hlen : payload.length ≤ 240) (dt : Nat) (h : Hdr) (s : State) :
    exec (.select dt h payload) s = .next (live dt (fun t => t.selective 0x06 h payload fun u => u.takeSelect payload) s) := by
  change carried (fits payload) _ = _
  rw [show fits payload = true from decide_eq_true hlen]
  rfl

theorem applyStep_sel (m : ZoneMap) (step : SelectStep) (o : Output) :
    (m.applyStep step).sel[o] = step.flagAfter o m.attrs[o] m.sel[o] := by simp [ZoneMap.applyStep]

theorem applyStep_keeps (m : ZoneMap) (step : SelectStep) :
    (m.applyStep step).windows = m.windows ∧ (m.applyStep step).attrs = m.attrs := by simp [ZoneMap.applyStep]

/-- R54: steps in order, each on every flag. -/
theorem foldl_applyStep (steps : List SelectStep) (m : ZoneMap) :
    (steps.foldl ZoneMap.applyStep m).windows = m.windows ∧ (steps.foldl ZoneMap.applyStep m).attrs = m.attrs ∧
    ∀ o : Output, (steps.foldl ZoneMap.applyStep m).sel[o] =
      steps.foldl (fun flag step => step.flagAfter o m.attrs[o] flag) m.sel[o] := by
  induction steps generalizing m with
  | nil => exact ⟨rfl, rfl, fun _ => rfl⟩
  | cons step steps ih =>
    obtain ⟨hwindows, hattrs, hsel⟩ := ih (m.applyStep step)
    simp only [List.foldl_cons]
    refine ⟨hwindows.trans (applyStep_keeps m step).1, hattrs.trans (applyStep_keeps m step).2, fun o => ?_⟩
    rw [hsel o, applyStep_sel, (applyStep_keeps m step).2]

/-- R53, R55: a good SELECT changes the zone map by its steps, and may count the steps it leaves. -/
theorem takeSelect_zm {s : State} {payload : List Byte} (h : selectGood payload = true) :
    (s.takeSelect payload).zm = (selectSteps payload).foldl ZoneMap.applyStep s.zm := by
  unfold State.takeSelect
  rw [if_pos h]
  generalize (selectSteps payload).foldl ZoneMap.applyStep s.zm = m
  dsimp only
  split <;> rfl

theorem takeSelect_keepsBut (s : State) (payload : List Byte) : s.keepsBut (s.takeSelect payload) [.zm, .counters] :=
  fun p hp => by cases p <;> simp [State.samePart] at hp ⊢

/-- Settles O25: the flags follow the steps by induction on them. -/
theorem selectApplied : Obligations.SelectApplied := by
  intro s dt h payload hc hp hlen hsel
  obtain ⟨t, hrun, -, hkeeps⟩ := selective_owner hc hp hsel 0x06 payload fun u => u.takeSelect payload
  rw [exec_select hlen, hrun]
  refine ⟨fun hgood => ?_, fun hbad => ⟨t, rfl, ?_⟩⟩
  · have hzm := takeSelect_zm (s := s.arrived dt h) hgood
    have hstays := takeSelect_keepsBut (s.arrived dt h) payload
    have hvzm : (s.arrived dt h).zm = s.zm := by simp
    rw [hvzm] at hzm
    have htzm : t.zm = _ := (show t.zm = _ from hkeeps .zm (by simp)).trans hzm
    obtain ⟨hwindows, hattrs, hflags⟩ := foldl_applyStep (selectSteps payload) s.zm
    refine ⟨t, rfl, fun o => by rw [htzm]; exact hflags o, by rw [htzm, hwindows], by rw [htzm, hattrs],
      (hstays.append hkeeps).mono (by decide)⟩
  · have hcount : State.takeSelect (s.arrived dt h) payload = (s.arrived dt h).count .selectBad := if_neg (by simp [hbad])
    rw [hcount] at hkeeps
    exact ((count_keepsBut _ .selectBad [.counters] (by simp)).append hkeeps).mono (by decide)

end Sys2Proof.Machine

/-! PROOFS. The statements on the judging of a reading and on the pulses of a clock line (R126 to R131, R143 to R146, R149). -/

namespace Sys2Proof.Machine

/-! ## The judging of a reading (R144 to R146) -/

/-- R145: the record of a circuit outside FAULT after an out-of-band reading. -/
def CircRecord.outOfBand (cr : CircRecord) (cfg : SupCfg) (isolates : Bool) (kind : FaultKind) (reading : Byte) : CircRecord :=
  if cfg.n ≤ cr.count + 1 then ⟨.fault, 0, some kind, isolates && cfg.autoIsolate, false, some reading⟩
  else { cr with state := .alert, count := cr.count + 1, last := some reading }

/-- 8.3: the record of a circuit after a reading; `isolates` is whether an output hangs on the circuit. -/
def CircRecord.judged (cr : CircRecord) (cfg : SupCfg) (isolates : Bool) (reading : Byte) : CircRecord :=
  let r := reading.toNat
  if cr.state = .fault then
    if r < cfg.lo then { cr with kind := some .short, recoverable := false, last := some reading }
    else if cfg.hi < r then { cr with kind := some .openLine, recoverable := false, last := some reading }
    else if cfg.lo + cfg.h ≤ r ∧ r + cfg.h ≤ cfg.hi then
      if cfg.autoRecover then { CircRecord.fresh with last := some reading }
      else { cr with recoverable := true, last := some reading }
    else { cr with last := some reading }
  else if r < cfg.lo then cr.outOfBand cfg isolates .short reading
  else if cfg.hi < r then cr.outOfBand cfg isolates .openLine reading
  else { cr with state := .normal, count := 0, last := some reading }

theorem circ_raise (s : State) (cls : NoticeClass) (k : Nat) (a : List Byte) (d : Circuit) :
    (s.raise cls k a).circ d = s.circ d := circ_of_records (by simp) d

theorem circ_outOfBand (s : State) (c : Circuit) (kind : FaultKind) (reading : Byte) (d : Circuit) :
    (s.outOfBand c kind reading).circ d =
      if d = c then (s.circ c).outOfBand (s.supCfg c) (outputOf c).isSome kind reading else s.circ d := by
  unfold State.outOfBand CircRecord.outOfBand
  dsimp only
  split
  · rw [circ_enterFault]
  · rw [circ_setCirc]

theorem circ_faultOutOfBand (s : State) (c : Circuit) (kind : FaultKind) (reading : Byte) (d : Circuit) :
    (s.faultOutOfBand c kind reading).circ d =
      if d = c then { s.circ c with kind := some kind, recoverable := false, last := some reading } else s.circ d := by
  rw [← circ_setCirc]
  unfold State.faultOutOfBand
  dsimp only
  split
  · rfl
  · rw [circ_raise]

theorem circ_faultInner (s : State) (c : Circuit) (reading : Byte) (d : Circuit) :
    (s.faultInner c reading).circ d =
      if d = c then
        if (s.supCfg c).autoRecover then { CircRecord.fresh with last := some reading }
        else { s.circ c with recoverable := true, last := some reading }
      else s.circ d := by
  unfold State.faultInner
  dsimp only
  split
  · rw [circ_leaveFault]
  · rw [← circ_setCirc]
    split
    · rfl
    · rw [circ_raise]

/-- 8.3: a judged reading writes the record of its circuit and no other. -/
theorem circ_judge (s : State) (c : Circuit) (reading : Byte) (d : Circuit) :
    (s.judge c reading).circ d =
      if d = c then (s.circ c).judged (s.supCfg c) (outputOf c).isSome reading else s.circ d := by
  unfold State.judge CircRecord.judged
  dsimp only
  (repeat' split) <;> simp_all [circ_faultOutOfBand, circ_faultInner, circ_outOfBand, circ_setCirc]

theorem cfg_enterFault (s : State) (c : Circuit) (kind : FaultKind) (reading : Byte) (isolate fromPulse : Bool) :
    (s.enterFault c kind reading isolate fromPulse).csv.cfg = s.csv.cfg := by
  unfold State.enterFault State.faultSeen isolationBegins
  dsimp only
  (repeat' split) <;> simp [State.setCirc]

theorem cfg_leaveFault (s : State) (c : Circuit) (cr : CircRecord) (cause : RecoverCause) :
    (s.leaveFault c cr cause).csv.cfg = s.csv.cfg := by
  unfold State.leaveFault State.faultLeft isolationLifted
  dsimp only
  (repeat' split) <;> simp [State.setCirc]

theorem cfg_judge (s : State) (c : Circuit) (reading : Byte) : (s.judge c reading).csv.cfg = s.csv.cfg := by
  unfold State.judge State.outOfBand State.faultOutOfBand State.faultInner
  dsimp only
  (repeat' split) <;> simp [cfg_enterFault, cfg_leaveFault, State.setCirc]

/-- R143: the end of a dwell judges its reading before the scan goes on. -/
theorem dwellEnds_of_due {s : State} {c : Circuit} {start len : Nat} (hscan : s.csv.scan = .dwell c start len)
    (hdue : start + len ≤ s.now) (reading : Byte) :
    s.dwellEnds reading = ((s.setScan .idle).judge c reading).scanNext c := by
  rw [State.dwellEnds, hscan]
  exact if_pos hdue

theorem judge_keepsBut (s : State) (c : Circuit) (reading : Byte) :
    s.keepsBut (s.judge c reading) [.line, .za, .cld, .csv, .counters, .draws] := fun p hp => by
  cases p <;> simp [State.samePart] at hp ⊢

theorem scanNext_keepsBut (s : State) (c : Circuit) : s.keepsBut (s.scanNext c) [.csv, .counters, .draws] := fun p hp => by
  cases p <;> simp [State.samePart] at hp ⊢

/-- R143: what the end of a dwell leaves. -/
theorem dwellEnds_parts {s : State} {c : Circuit} {start len : Nat} (hscan : s.csv.scan = .dwell c start len)
    (hdue : start + len ≤ s.now) (reading : Byte) :
    (∀ d, (s.dwellEnds reading).circ d =
      if d = c then (s.circ c).judged (s.supCfg c) (outputOf c).isSome reading else s.circ d) ∧
    (s.dwellEnds reading).csv.cfg = s.csv.cfg ∧
    s.keepsBut (s.dwellEnds reading) [.line, .za, .cld, .csv, .counters, .draws] := by
  rw [dwellEnds_of_due hscan hdue]
  have hidle : s.keepsBut (s.setScan .idle) [.csv] := fun p hp => by cases p <;> simp [State.samePart] at hp ⊢
  refine ⟨fun d => ?_, by rw [(State.scanNext_keeps _ _).2.2.2.2.2.2.2.2.2.2.2.2.2.2.2.2, cfg_judge]; rfl,
    ((hidle.append (judge_keepsBut _ c reading)).append (scanNext_keepsBut _ c)).mono (by decide)⟩
  rw [circ_of_records (s := (s.setScan .idle).judge c reading) (by simp), circ_judge]
  rfl

/-- Settles O43: the record after a reading is a function of the record before it and the circuit's configuration. -/
theorem dwellJudged : Obligations.DwellJudged := by
  intro s dt c start len reading hh hscan hdue cfg cr r inner
  obtain ⟨hcirc, hcfg, hkeeps⟩ := dwellEnds_parts (s := s.elapse dt) (by simpa using hscan) (by simpa using hdue) reading
  simp only [readings_elapse] at hcirc
  have hself : ((s.elapse dt).dwellEnds reading).circ c = cr.judged cfg (outputOf c).isSome reading := by
    rw [hcirc, if_pos rfl]
  refine ⟨_, congrArg Host.Outcome.next (live_running hh ..), fun d hd => by rw [hcirc, if_neg hd], fun hf => ?_, fun hf => ?_,
    hcfg.trans (by simp), hkeeps⟩
  · rw [hself, CircRecord.judged, if_neg hf]
    clear_value cfg
    refine ⟨fun hlo hhi => ?_, fun hout hn => ?_, fun hlo hn => ?_, fun hlo hhi hn => ?_⟩
    · rw [if_neg (by omega), if_neg (by omega)]
    · have halert : ∀ kind, cr.outOfBand cfg (outputOf c).isSome kind reading =
          { cr with state := .alert, count := cr.count + 1, last := some reading } := fun kind => if_neg (by omega)
      obtain hlo | hhi := hout
      · rw [if_pos hlo]
        exact halert _
      · by_cases hlo : r < cfg.lo
        · rw [if_pos hlo]
          exact halert _
        · rw [if_neg hlo, if_pos hhi]
          exact halert _
    · rw [if_pos hlo]
      exact if_pos hn
    · rw [if_neg (by omega), if_pos hhi]
      exact if_pos hn
  · rw [hself, CircRecord.judged, if_pos hf]
    clear_value cfg
    refine ⟨fun hlo => if_pos hlo, fun hlo hhi => ?_, fun hin ha => ?_, fun hin ha => ?_, fun hlo hhi hn => ?_⟩
    · rw [if_neg (by omega), if_pos hhi]
    · rw [if_neg (by omega), if_neg (by omega), if_pos hin, if_pos ha]
    · rw [if_neg (by omega), if_neg (by omega), if_pos hin, if_neg (by simpa using ha)]
    · rw [if_neg (by omega), if_neg (by omega), if_neg hn]

/-! ## The end of a pulse (R128, R129, R131) -/

theorem retained_setRetained (s : State) (k : LineNo) (v : Retained) (l : LineNo) :
    (s.setRetained k v).retained l = if l = k then v else s.retained l := by
  split
  · next h => rw [h, State.retained_setRetained_self]
  · next h => rw [State.retained_setRetained_ne _ _ h]

/-- The line whose pulse ends, before the scan and the evaluation that follow (R128, R131). -/
def State.pulseEnded (s : State) (k : LineNo) (pol : Polarity) (counted : Bool) : State :=
  let ln := s.clockLine k
  let r := s.retained k
  let r := if counted then advanceRecord (s.clockCfg k).type.dial pol r else r
  let s := s.setRetained k { takePending ln.pending r with type := (s.clockCfg k).type.kept }
  let s := if counted then s.count .pulsesDelivered else s
  s.setClockLine k
    { ln with pulse := none, pending := none, lastEnd := some s.now,
              correction := if counted then ln.correction.map (· + 1) else ln.correction }

theorem endPulse_eq (s : State) (k : LineNo) (pol : Polarity) (counted : Bool) :
    s.endPulse k pol counted = (settleScan (s.pulseEnded k pol counted)).evaluate k := rfl

theorem pulseEnded_clockLine (s : State) (k : LineNo) (pol : Polarity) (counted : Bool) :
    ((s.pulseEnded k pol counted).clockLine k).pulse = none ∧ ((s.pulseEnded k pol counted).clockLine k).pending = none ∧
    ((s.pulseEnded k pol counted).clockLine k).lastEnd = some s.now := by
  unfold State.pulseEnded
  dsimp only
  rw [State.clockLine_setClockLine_self]
  split <;> simp

theorem pulseEnded_retained (s : State) (k : LineNo) (pol : Polarity) (counted : Bool) (l : LineNo) :
    (s.pulseEnded k pol counted).retained l =
      if l = k then { takePending (s.clockLine k).pending (if counted then
        advanceRecord (s.clockCfg k).type.dial pol (s.retained k) else s.retained k) with type := (s.clockCfg k).type.kept }
      else s.retained l := by
  rw [← retained_setRetained]
  unfold State.pulseEnded
  cases counted <;> rfl

theorem rs_endPulse (s : State) (k : LineNo) (pol : Polarity) (counted : Bool) :
    (s.endPulse k pol counted).rs = (s.pulseEnded k pol counted).rs := by
  rw [endPulse_eq]
  simp

/-- R128, R131: what the end of a pulse leaves of its line. -/
theorem endPulse_clockLine (s : State) (k : LineNo) (pol : Polarity) (counted : Bool) :
    ((s.endPulse k pol counted).clockLine k).lastEnd = some s.now ∧
    ((s.endPulse k pol counted).clockLine k).pending = none := by
  obtain ⟨-, hpending, hlast⟩ := pulseEnded_clockLine s k pol counted
  obtain ⟨hlast', hpending'⟩ := evaluate_clockLine_self (settleScan (s.pulseEnded k pol counted)) k
  have hline : (settleScan (s.pulseEnded k pol counted)).clockLine k = (s.pulseEnded k pol counted).clockLine k := by
    simp [State.clockLine]
  rw [endPulse_eq, hlast', hpending', hline]
  exact ⟨hlast, hpending⟩

theorem endPulse_retained (s : State) (k : LineNo) (pol : Polarity) (counted : Bool) (l : LineNo) :
    (s.endPulse k pol counted).retained l = (s.pulseEnded k pol counted).retained l := by
  rw [State.retained, rs_endPulse, State.retained]

theorem endPulse_keepsBut (s : State) (k : LineNo) (pol : Polarity) (counted : Bool) :
    s.keepsBut (s.endPulse k pol counted) [.line, .cld, .csv, .rs, .counters, .draws] := fun p hp => by
  cases p <;> simp [State.samePart] at hp ⊢

theorem exec_pulseEnd (dt : Nat) (k : LineNo) (s : State) : exec (.pulseEnd dt k) s = .next (live dt (fun t =>
    match (t.clockLine k).pulse with
    | some p =>
      if p.result ≠ .pending ∧ p.due ≤ t.now then t.endPulse k p.polarity (decide (p.result = .good)) else t
    | none => t) s) := rfl

/-- Settles O40: the end by its result, and the pending position taken up by its case. -/
theorem pulseEnds : Obligations.PulseEnds := by
  intro s dt k p hh hp hresult hdue r kept
  let u := s.elapse dt
  have hline : u.clockLine k = s.clockLine k := by simp [u]
  have hrun : exec (.pulseEnd dt k) s = .next (u.endPulse k p.polarity (decide (p.result = .good))) := by
    rw [exec_pulseEnd, live_running hh, show (s.elapse dt).clockLine k = _ from hline, hp]
    exact congrArg Host.Outcome.next (if_pos ⟨hresult, by simpa using hdue⟩)
  obtain ⟨hlast, hpending⟩ := endPulse_clockLine u k p.polarity (decide (p.result = .good))
  have hret : ∀ l, (u.endPulse k p.polarity (decide (p.result = .good))).retained l = _ := fun l =>
    (endPulse_retained _ _ _ _ l).trans (pulseEnded_retained _ _ _ _ l)
  simp only [u, readings_elapse] at hret
  have hself := hret k
  rw [if_pos rfl] at hself
  refine ⟨_, hrun, by rw [hlast]; simp [u], hpending, fun l hl => by rw [hret, if_neg hl], fun hg hn => ?_, fun ho hn => ?_,
    fun i pol hg hn => ?_, fun i pol ho hn => ?_, fun hn => ?_, endPulse_keepsBut u k _ _⟩
  · rw [hself, hn, hg]
    rfl
  · rw [hself, hn, ho]
    rfl
  · rw [hself, hn, hg]
    rfl
  · rw [hself, hn, ho]
    rfl
  · rw [hself, hn]
    exact ⟨rfl, rfl, rfl⟩

end Sys2Proof.Machine

/-! PROOFS. The statement on the in-pulse check (R126 to R128, R149). -/

namespace Sys2Proof.Machine

/-- R118: the circuit of a clock line carries no output. -/
theorem readers_circuitOfLine (k : LineNo) : outputOf (circuitOfLine k) = none ∧ lineOf (circuitOfLine k) = some k := by
  revert k
  decide

/-- R134, R149: an entry of the circuit of a line whose pulse is in flight into FAULT leaves the lines and the store. -/
theorem enterFault_line {s : State} {k : LineNo} (hp : (s.clockLine k).pulse.isSome = true) (kind : FaultKind)
    (reading : Byte) :
    (s.enterFault (circuitOfLine k) kind reading false true).cld = s.cld ∧
    (s.enterFault (circuitOfLine k) kind reading false true).rs = s.rs ∧
    (s.enterFault (circuitOfLine k) kind reading false true).now = s.now := by
  obtain ⟨hout, hline⟩ := readers_circuitOfLine k
  unfold State.enterFault State.faultSeen
  dsimp only
  rw [hout, hline]
  dsimp only
  rw [evaluate_of_pulse (by simpa [State.clockLine] using hp)]
  simp [State.setCirc]

/-- R149: the current fault of an enabled circuit outside FAULT is its entry into FAULT. -/
theorem currentFault_of_enabled {s : State} {k : LineNo} (hen : (s.supCfg (circuitOfLine k)).enabled = true)
    (hf : (s.circ (circuitOfLine k)).state ≠ .fault) (kind : FaultKind) (reading : Byte) :
    s.currentFault k kind reading = s.enterFault (circuitOfLine k) kind reading false true := if_pos ⟨hen, hf⟩

/-- R123: with its circuit in FAULT a line without a pulse starts none. -/
theorem evaluate_pulse_of_fault {s : State} {k : LineNo} (hp : (s.clockLine k).pulse = none)
    (hf : (s.circ (circuitOfLine k)).state = .fault) : ((s.evaluate k).clockLine k).pulse = none := by
  have hmode : (s.evalMode k).1 ≠ .advance := by
    unfold State.evalMode
    split
    · simp
    · split
      · simp
      · simp
  have henter : ∀ m d, ((s.enterMode k m d).clockLine k).pulse = none := fun m d => by
    obtain ⟨c, h, -⟩ := enterMode_clock s k m d
    rw [h, hp]
  unfold State.evaluate
  rw [if_neg (by simp [hp])]
  dsimp only
  rw [if_neg hmode]
  split <;> simp [henter]

theorem exec_pulseMidCheck (dt : Nat) (k : LineNo) (reading : Byte) (s : State) : exec (.pulseMidCheck dt k reading) s =
    .next (live dt (fun t =>
      match (t.clockLine k).pulse with
      | some p => if p.result = .pending ∧ p.midDue ≤ t.now then t.checkPulse k p reading else t
      | none => t) s) := rfl

/-- R128, R149: a reading below the open limit, of an enabled circuit outside FAULT. -/
theorem checkPulse_open {s : State} {k : LineNo} {p : Pulse} {reading : Byte}
    (hlo : reading.toNat < p.openLim) (hhi : reading.toNat ≤ p.shortLim)
    (hen : (s.supCfg (circuitOfLine k)).enabled = true) (hf : (s.circ (circuitOfLine k)).state ≠ .fault) :
    ((s.checkPulse k p reading).clockLine k).pulse = some { p with result := .openLine } ∧
    (s.checkPulse k p reading).rs = s.rs ∧
    ∀ c, (s.checkPulse k p reading).circ c =
      if c = circuitOfLine k then ⟨.fault, 0, some .openLine, false, false, some reading⟩ else s.circ c := by
  let u := s.setPulse k { p with result := .openLine }
  have hu : (u.clockLine k).pulse = some { p with result := .openLine } := by simp [u, State.setPulse]
  obtain ⟨hcld, hrs, -⟩ := enterFault_line (s := u) (k := k) (by rw [hu]; rfl) .openLine reading
  have hrun : s.checkPulse k p reading =
      ((u.enterFault (circuitOfLine k) .openLine reading false true).count .pulseOpen).pulseFault k .openLine reading := by
    have hjudged : p.judged reading = some .openLine := by
      rw [Pulse.judged, if_neg (by omega), if_pos hlo]
    unfold State.checkPulse
    rw [hjudged]
    dsimp only
    rw [currentFault_of_enabled (s := u) hen hf]
  rw [hrun]
  refine ⟨?_, ?_, fun c => ?_⟩
  · simp only [State.pulseFault, State.clockLine, State.raise_keeps, State.count_keeps, hcld]
    exact hu
  · simp only [State.pulseFault, State.raise_keeps, State.count_keeps, hrs]
    rfl
  · rw [State.pulseFault, circ_raise, (readings_count _ _).1, circ_enterFault]
    rfl

/-- R128, R149: a reading above the short limit, of an enabled circuit outside FAULT, with no position pending. -/
theorem checkPulse_short {s : State} {k : LineNo} {p : Pulse} {reading : Byte} (hp : (s.clockLine k).pulse = some p)
    (hhi : p.shortLim < reading.toNat) (hen : (s.supCfg (circuitOfLine k)).enabled = true)
    (hf : (s.circ (circuitOfLine k)).state ≠ .fault) (hpending : (s.clockLine k).pending = none) :
    ((s.checkPulse k p reading).clockLine k).pulse = none ∧
    ((s.checkPulse k p reading).clockLine k).lastEnd = some s.now ∧
    ((s.checkPulse k p reading).retained k).position = (s.retained k).position ∧
    ((s.checkPulse k p reading).retained k).polarity = (s.retained k).polarity ∧
    ∀ c, (s.checkPulse k p reading).circ c =
      if c = circuitOfLine k then ⟨.fault, 0, some .short, false, false, some reading⟩ else s.circ c := by
  obtain ⟨hcld, hrs, hnow⟩ := enterFault_line (s := s) (k := k) (by rw [hp]; rfl) .short reading
  let y := ((s.enterFault (circuitOfLine k) .short reading false true).count .pulseShort).pulseFault k .short reading
  have hycld : y.cld = s.cld := by
    rw [← hcld]
    simp [y, State.pulseFault]
  have hyrs : y.rs = s.rs := by
    rw [← hrs]
    simp [y, State.pulseFault]
  have hynow : y.now = s.now := by
    rw [← hnow]
    simp [y, State.pulseFault]
  have hycirc : ∀ c, y.circ c = if c = circuitOfLine k then ⟨.fault, 0, some .short, false, false, some reading⟩
      else s.circ c := fun c => by
    rw [show y.circ c = _ from circ_raise _ _ _ _ c, (readings_count _ _).1, circ_enterFault]
  have hrun : s.checkPulse k p reading = y.endPulse k p.polarity false := by
    have hjudged : p.judged reading = some .short := by
      rw [Pulse.judged, if_pos hhi]
    unfold State.checkPulse
    rw [hjudged]
    dsimp only
    rw [currentFault_of_enabled hen hf]
  obtain ⟨hnone, -, -⟩ := pulseEnded_clockLine y k p.polarity false
  obtain ⟨hlast, -⟩ := endPulse_clockLine y k p.polarity false
  have hcirc : ∀ c, (y.endPulse k p.polarity false).circ c = y.circ c := fun c => circ_of_records (by simp) c
  have hended : ∀ c, (settleScan (y.pulseEnded k p.polarity false)).circ c = y.circ c := fun c =>
    circ_of_records (by simp [State.pulseEnded]) c
  have hret : (y.endPulse k p.polarity false).retained k = { s.retained k with type := (s.clockCfg k).type.kept } := by
    rw [endPulse_retained, pulseEnded_retained, if_pos rfl, State.clockLine, State.clockCfg, hycld, State.retained, hyrs]
    change { takePending (s.clockLine k).pending (s.retained k) with type := (s.clockCfg k).type.kept } = _
    rw [hpending]
    rfl
  rw [hrun]
  refine ⟨?_, by rw [hlast, hynow], by rw [hret], by rw [hret], fun c => (hcirc c).trans (hycirc c)⟩
  rw [endPulse_eq]
  refine evaluate_pulse_of_fault ?_ (by rw [hended, hycirc, if_pos rfl])
  simpa [State.clockLine] using hnone

/-- Settles O39: by the result of the reading. -/
theorem pulseChecked : Obligations.PulseChecked := by
  intro s dt k p reading hh hp hpending hdue
  let u := s.elapse dt
  have hup : (u.clockLine k).pulse = some p := by simp [u, hp]
  have hrun : exec (.pulseMidCheck dt k reading) s = .next (u.checkPulse k p reading) := by
    rw [exec_pulseMidCheck, live_running hh, show ((s.elapse dt).clockLine k).pulse = _ from hup]
    exact congrArg Host.Outcome.next (if_pos ⟨hpending, by simpa using hdue⟩)
  refine ⟨fun hlo hhi => ?_, fun hlo hhi hen hf => ?_, fun hhi hen hf hn => ?_⟩
  · have hjudged : p.judged reading = none := by
      rw [Pulse.judged, if_neg (by omega), if_neg (by omega)]
    rw [hrun, State.checkPulse, hjudged]
    simp [State.setPulse, u]
  · obtain ⟨hpulse, hrs, hcirc⟩ := checkPulse_open (s := u) hlo hhi (by simpa [u] using hen) (by simpa [u] using hf)
    refine ⟨_, hrun, hpulse, hrs.trans (by simp [u]), by rw [hcirc, if_pos rfl], fun c hc => ?_⟩
    rw [hcirc, if_neg hc]
    simp [u]
  · obtain ⟨hpulse, hlast, hposition, hpolarity, hcirc⟩ :=
      checkPulse_short hup hhi (by simpa [u] using hen) (by simpa [u] using hf) (by simpa [u] using hn)
    refine ⟨_, hrun, hpulse, hlast.trans (by simp [u]), hposition.trans (by simp [u]), hpolarity.trans (by simp [u]),
      by rw [hcirc, if_pos rfl], fun c hc => ?_⟩
    rw [hcirc, if_neg hc]
    simp [u]

end Sys2Proof.Machine

/-! PROOFS. The statement on the evaluation of the clock lines (R121 to R126), with what the events of the Timebase leave of the
circuits. -/

namespace Sys2Proof.Machine

/-! ## The circuits' records through a time event -/

@[simp] theorem drillReached_csv (s : State) (day : Word16) (ms : Nat) :
    (s.drillReached day ms).csv.records = s.csv.records ∧ (s.drillReached day ms).csv.cfg = s.csv.cfg := by
  unfold State.drillReached
  (repeat' split) <;> simp

@[simp] theorem takeStart_csv (s : State) (id : Word16) (p : Fin 4) (day : Word16) (ms : Nat) :
    (s.takeStart id p day ms).csv.records = s.csv.records ∧ (s.takeStart id p day ms).csv.cfg = s.csv.cfg := by
  unfold State.takeStart
  dsimp only
  split <;> simp

@[simp] theorem ring_csv (s : State) (t : Target) (q : Bool) (pattern duration : Nat) :
    (s.ring t q pattern duration).csv.records = s.csv.records ∧ (s.ring t q pattern duration).csv.cfg = s.csv.cfg := by
  unfold State.ring
  dsimp only
  split <;> simp

@[simp] theorem processEntry_csv (s : State) (i : Fin 256) :
    (s.processEntry i).csv.records = s.csv.records ∧ (s.processEntry i).csv.cfg = s.csv.cfg := by
  unfold State.processEntry State.fireBell State.fireDrillEntry
  dsimp only
  (repeat' split) <;> simp

@[simp] theorem processEntries_csv (s : State) (is : List (Fin 256)) :
    (s.processEntries is).csv.records = s.csv.records ∧ (s.processEntries is).csv.cfg = s.csv.cfg :=
  foldl_csv (by simp) is s

@[simp] theorem bellSecond_csv (s : State) (sec : Nat) :
    (s.bellSecond sec).csv.records = s.csv.records ∧ (s.bellSecond sec).csv.cfg = s.csv.cfg := by
  unfold State.bellSecond
  dsimp only
  split <;> simp

@[simp] theorem bellStep_csv (s : State) (e : StepEvent) :
    (s.bellStep e).csv.records = s.csv.records ∧ (s.bellStep e).csv.cfg = s.csv.cfg := by
  unfold State.bellStep State.bellForward State.bellOtherDay State.bellFromBackup
  dsimp only
  (repeat' split) <;> simp

@[simp] theorem secondBoundary_csv (s : State) (b : Bool) (sec : Nat) :
    (s.secondBoundary b sec).csv.records = s.csv.records ∧ (s.secondBoundary b sec).csv.cfg = s.csv.cfg := by
  unfold State.secondBoundary inOrder
  split <;> simp

/-! ## The true position (R121, R123) -/

/-- R121, R123: the distance completes the position to the true one on the dial. -/
theorem distance_spec {ty : ClockType} (hty : ty ≠ .off) (ms i : Nat) :
    distance ty ms i < ty.dial ∧ (distance ty ms i + i) % ty.dial = ms / ty.stepMs % ty.dial := by
  cases ty with
  | off => exact absurd rfl hty
  | minute =>
    simp only [distance, truePosition, ClockType.dial, ClockType.stepMs]
    omega
  | half =>
    simp only [distance, truePosition, ClockType.dial, ClockType.stepMs]
    omega

/-! ## The evaluation of all lines by an event -/

/-- The types that use the step boundary of index k (R122). -/
def ClockType.usesBoundary (t : ClockType) (k : Nat) : Prop := t = .half ∨ t = .minute ∧ k % 2 = 0

/-- The line's act at a step boundary. -/
def State.boundaryAt (k : Nat) (s : State) (l : LineNo) : State :=
  match (s.clockCfg l).type with
  | .off => s
  | .minute => if k % 2 = 0 then s.evaluate l else s
  | .half => s.evaluate l

theorem boundaryAt_of_uses {s : State} {k : Nat} {l : LineNo} (h : (s.clockCfg l).type.usesBoundary k) :
    s.boundaryAt k l = s.evaluate l := by
  unfold State.boundaryAt
  obtain h | ⟨h, hk⟩ := h
  · rw [h]
  · rw [h]
    exact if_pos hk

theorem boundaryAt_of_not_uses {s : State} {k : Nat} {l : LineNo} (h : ¬(s.clockCfg l).type.usesBoundary k) :
    s.boundaryAt k l = s := by
  unfold State.boundaryAt
  split
  · rfl
  · next hm => exact if_neg fun hk => h (.inr ⟨hm, hk⟩)
  · next hh => exact absurd (.inl hh) h

theorem boundaryAt_other (k : Nat) (s : State) (l m : LineNo) (h : m ≠ l) : s.sameForLine (s.boundaryAt k l) m := by
  unfold State.boundaryAt
  split
  · exact .refl s m
  · split
    · exact sameForLine_evaluate s h
    · exact .refl s m
  · exact sameForLine_evaluate s h

/-- The line's act at a step or the start of campus time. -/
def State.stepAt (s : State) (l : LineNo) : State := if (s.clockCfg l).type = .off then s else s.evaluate l

theorem stepAt_other (s : State) (l m : LineNo) (h : m ≠ l) : s.sameForLine (s.stepAt l) m := by
  unfold State.stepAt
  split
  · exact .refl s m
  · exact sameForLine_evaluate s h

/-- R122: an event that evaluates lines one by one evaluates each as if it were the only one. -/
theorem foldl_evaluated {g : State → LineNo → State} {uses : ClockType → Prop}
    (hother : ∀ (s : State) (l m : LineNo), m ≠ l → s.sameForLine (g s l) m)
    (huses : ∀ (s : State) (l : LineNo), uses (s.clockCfg l).type → g s l = s.evaluate l)
    (hnot : ∀ (s : State) (l : LineNo), ¬uses (s.clockCfg l).type → g s l = s) (hoff : ∀ t, uses t → t ≠ .off)
    (s : State) (k : LineNo) :
    (uses (s.clockCfg k).type → (s.clockLine k).pulse = none →
      s.evaluated (allLines.foldl g s) k s.tb.quality s.tb.ms s.now) ∧
    (¬uses (s.clockCfg k).type ∨ (s.clockLine k).pulse ≠ none →
      (allLines.foldl g s).clockLine k = s.clockLine k) := by
  obtain ⟨u, hu, hfold⟩ := (foldl_line hother (k := k) allLines_nodup s).2 (mem_allLines k)
  obtain ⟨hreads, htb, hnow⟩ := hu
  have hcfg : u.clockCfg k = s.clockCfg k := hreads.2.1
  have hline : u.clockLine k = s.clockLine k := hreads.1
  constructor
  · intro hk hp
    rw [← hcfg] at hk
    rw [huses u k hk] at hfold
    have := evaluate_evaluated (s := u) (k := k) (by rw [hline, hp]) (hoff _ hk)
    rw [htb, hnow] at this
    exact evaluated_congr hreads hfold this
  · intro hk
    rw [hfold, ← hline]
    by_cases hused : uses (u.clockCfg k).type
    · have hp : (u.clockLine k).pulse ≠ none := by
        rw [hline]
        exact hk.resolve_left fun hn => hn (hcfg ▸ hused)
      rw [huses u k hused, evaluate_of_pulse (Option.isSome_iff_ne_none.mpr hp)]
    · rw [hnot u k hused]

theorem stepBoundary_evaluated (s : State) (i : Nat) (k : LineNo) :
    ((s.clockCfg k).type.usesBoundary i → (s.clockLine k).pulse = none →
      s.evaluated (s.stepBoundary i) k s.tb.quality s.tb.ms s.now) ∧
    (¬(s.clockCfg k).type.usesBoundary i ∨ (s.clockLine k).pulse ≠ none →
      (s.stepBoundary i).clockLine k = s.clockLine k) :=
  foldl_evaluated (g := State.boundaryAt i) (uses := fun t => t.usesBoundary i) (boundaryAt_other i)
    (fun _ _ h => boundaryAt_of_uses h) (fun _ _ h => boundaryAt_of_not_uses h)
    (fun t ht => by obtain rfl | ⟨rfl, -⟩ := ht <;> simp) s k

theorem evaluateAll_evaluated (s : State) (k : LineNo) :
    ((s.clockCfg k).type ≠ .off → (s.clockLine k).pulse = none → s.evaluated s.evaluateAll k s.tb.quality s.tb.ms s.now) ∧
    ((s.clockCfg k).type = .off ∨ (s.clockLine k).pulse ≠ none → s.evaluateAll.clockLine k = s.clockLine k) := by
  have := foldl_evaluated (g := State.stepAt) (uses := fun t => t ≠ .off) stepAt_other (fun _ _ h => if_neg h)
    (fun _ _ h => if_pos (not_not.mp h)) (fun _ h => h) s k
  rw [not_not] at this
  exact this

/-! ## The local millisecond (R4, R122) -/

/-- The events of a tick before its step boundary (R4, R5). -/
def State.tickBells (s : State) (fdcFirst : Bool) (ms adv : Nat) : State :=
  let s := if Config.dayMs ≤ ms + adv then s.bellMidnight s.tb.day else s
  if ms / 1000 < (ms + adv) / 1000 then s.secondBoundary fdcFirst ((ms + adv) / 1000 % 86400) else s

/-- The step boundary of a tick, where it passes one (R4). -/
def State.tickSteps (s : State) (ms adv : Nat) : State :=
  if ms / 30000 < (ms + adv) / 30000 then s.stepBoundary ((ms + adv) / 30000 % 2880) else s

theorem tickEvents_eq (s : State) (b : Bool) (ms adv : Nat) : s.tickEvents b ms adv =
    if ms / 60000 < (ms + adv) / 60000 then ((s.tickBells b ms adv).tickSteps ms adv).writeBackup
    else (s.tickBells b ms adv).tickSteps ms adv := rfl

theorem tickBells_parts (s : State) (b : Bool) (ms adv : Nat) :
    (s.tickBells b ms adv).tb = s.tb ∧ (s.tickBells b ms adv).now = s.now ∧ (s.tickBells b ms adv).cld = s.cld ∧
    (s.tickBells b ms adv).rs = s.rs ∧ (s.tickBells b ms adv).csv.records = s.csv.records ∧
    (s.tickBells b ms adv).csv.cfg = s.csv.cfg := by
  unfold State.tickBells
  dsimp only
  (repeat' split) <;> simp

theorem foldl_boundaryAt_cfg (k : Nat) (ls : List LineNo) (s : State) :
    (ls.foldl (State.boundaryAt k) s).cld.cfg = s.cld.cfg := by
  induction ls generalizing s with
  | nil => rfl
  | cons l ls ih =>
    rw [List.foldl_cons, ih]
    unfold State.boundaryAt
    (repeat' split) <;> simp

theorem foldl_stepAt_cfg (ls : List LineNo) (s : State) : (ls.foldl State.stepAt s).cld.cfg = s.cld.cfg := by
  induction ls generalizing s with
  | nil => rfl
  | cons l ls ih =>
    rw [List.foldl_cons, ih]
    unfold State.stepAt
    split <;> simp

@[simp] theorem stepBoundary_cfg (s : State) (k : Nat) : (s.stepBoundary k).cld.cfg = s.cld.cfg := by
  have h : s.stepBoundary k = allLines.foldl (State.boundaryAt k) s := rfl
  rw [h, foldl_boundaryAt_cfg]

@[simp] theorem evaluateAll_cfg (s : State) : s.evaluateAll.cld.cfg = s.cld.cfg := by
  have h : s.evaluateAll = allLines.foldl State.stepAt s := rfl
  rw [h, foldl_stepAt_cfg]

@[simp] theorem tickSteps_cfg (s : State) (ms adv : Nat) : (s.tickSteps ms adv).cld.cfg = s.cld.cfg := by
  unfold State.tickSteps
  split <;> simp

/-- R4, R122: the step boundary that a tick passes evaluates each line whose type uses it. -/
theorem tickSteps_evaluated (s : State) (ms adv : Nat) (k : LineNo) :
    (ms / 30000 < (ms + adv) / 30000 ∧ (s.clockCfg k).type.usesBoundary ((ms + adv) / 30000) →
      (s.clockLine k).pulse = none → s.evaluated (s.tickSteps ms adv) k s.tb.quality s.tb.ms s.now) ∧
    (¬(ms / 30000 < (ms + adv) / 30000 ∧ (s.clockCfg k).type.usesBoundary ((ms + adv) / 30000)) ∨
      (s.clockLine k).pulse ≠ none → (s.tickSteps ms adv).clockLine k = s.clockLine k) := by
  have hparity : ∀ t : ClockType,
      t.usesBoundary ((ms + adv) / 30000 % 2880) ↔ t.usesBoundary ((ms + adv) / 30000) := by
    intro t
    unfold ClockType.usesBoundary
    have : (ms + adv) / 30000 % 2880 % 2 = (ms + adv) / 30000 % 2 := by omega
    rw [this]
  obtain ⟨heval, hstay⟩ := stepBoundary_evaluated s ((ms + adv) / 30000 % 2880) k
  rw [hparity] at heval hstay
  unfold State.tickSteps
  split
  · next hb => exact ⟨fun h hp => heval h.2 hp, fun h => hstay (h.imp_left fun hn hu => hn ⟨hb, hu⟩)⟩
  · next hb => exact ⟨fun h => absurd h.1 hb, fun _ => rfl⟩

/-- R3: how far a tick moves T. -/
theorem tickAdvance_fst (b : Bool) (c : Int) :
    (tickAdvance b c).1 = if b = true ∧ 0 < c then 2 else if b = true ∧ c < 0 then 0 else 1 := by
  unfold tickAdvance
  cases b
  · simp
  · simp only [if_true, true_and]
    (repeat' split) <;> rfl

/-- R4, R5, R122: what the events of a tick do to the lines. -/
theorem tickEvents_lines (u : State) (b : Bool) (ms adv : Nat) :
    (u.tickEvents b ms adv).cld.cfg = u.cld.cfg ∧ ∀ k : LineNo,
      (ms / 30000 < (ms + adv) / 30000 ∧ (u.clockCfg k).type.usesBoundary ((ms + adv) / 30000) →
        (u.clockLine k).pulse = none → u.evaluated (u.tickEvents b ms adv) k u.tb.quality u.tb.ms u.now) ∧
      (¬(ms / 30000 < (ms + adv) / 30000 ∧ (u.clockCfg k).type.usesBoundary ((ms + adv) / 30000)) ∨
        (u.clockLine k).pulse ≠ none → (u.tickEvents b ms adv).clockLine k = u.clockLine k) := by
  obtain ⟨htb, hnow, hcld, hrs, hrecords, hcfg⟩ := tickBells_parts u b ms adv
  have hline : ∀ k, (u.tickEvents b ms adv).clockLine k = ((u.tickBells b ms adv).tickSteps ms adv).clockLine k := by
    intro k
    rw [tickEvents_eq]
    split <;> rfl
  have hown : (u.tickEvents b ms adv).cld.cfg = ((u.tickBells b ms adv).tickSteps ms adv).cld.cfg := by
    rw [tickEvents_eq]
    split <;> rfl
  refine ⟨by rw [hown, tickSteps_cfg, hcld], fun k => ?_⟩
  have hreads : u.sameReads (u.tickBells b ms adv) k :=
    sameReads_of_parts hcld (fun _ => by rw [State.retained, hrs, State.retained]) hrecords hcfg k
  obtain ⟨heval, hstay⟩ := tickSteps_evaluated (u.tickBells b ms adv) ms adv k
  rw [hreads.1, hreads.2.1, htb, hnow] at heval
  rw [hreads.1, hreads.2.1] at hstay
  exact ⟨fun h hp => evaluated_congr hreads (hline k) (heval h hp), fun h => (hline k).trans (hstay h)⟩

/-- The state of a tick before its events (R3). -/
def State.ticked (s : State) : State :=
  { s.elapse (1000 - s.tb.phase) with tb := (s.elapse (1000 - s.tb.phase)).tb.tick }

theorem localTickEvent_of_running {s : State} (hq : s.tb.quality ≠ .invalid) (b : Bool) :
    s.localTickEvent b =
      s.ticked.tickEvents b s.tb.ms (tickAdvance (decide (s.ticked.tb.slewCount = 0)) s.tb.slew).1 := by
  unfold State.localTickEvent
  exact if_neg hq

/-- R122: the evaluations of a tick. -/
theorem exec_localTick_lines {s : State} {first : Bool} (hh : s.held = false) (hq : s.tb.quality ≠ .invalid) :
    let slewTick := ¬ s.tb.slewCount < 49
    let ms := s.tb.ms + (if slewTick ∧ 0 < s.tb.slew then 2 else if slewTick ∧ s.tb.slew < 0 then 0 else 1)
    let used : ClockType → Prop := fun ty =>
      s.tb.ms / 30000 < ms / 30000 ∧ (ty = .half ∨ ty = .minute ∧ ms / 30000 % 2 = 0)
    ∃ t, exec (.localTick first) s = .next t ∧ t.cld.cfg = s.cld.cfg ∧ ∀ k : LineNo,
      (used (s.clockCfg k).type → (s.clockLine k).pulse = none →
        s.evaluated t k s.tb.quality (ms % 86400000) (s.now + (1000 - s.tb.phase))) ∧
      (¬used (s.clockCfg k).type ∨ (s.clockLine k).pulse ≠ none → t.clockLine k = s.clockLine k) := by
  intro slewTick ms used
  refine ⟨_, exec_localTick hh first, ?_⟩
  have htb : s.ticked.tb = _ := elapsed_tick_running hh hq
  have hcount : decide (s.ticked.tb.slewCount = 0) = decide slewTick := by
    rw [htb, decide_eq_decide]
    simp only [slewTick]
    split <;> omega
  have hms : s.tb.ms + (tickAdvance (decide slewTick) s.tb.slew).1 = ms := by
    rw [tickAdvance_fst]
    simp only [decide_eq_true_eq, ms]
  have htms : s.ticked.tb.ms = ms % 86400000 := by
    rw [← hms, ← hcount, htb]
  have htq : s.ticked.tb.quality = s.tb.quality := by rw [htb]
  have hreads : ∀ k, s.sameReads s.ticked k :=
    sameReads_of_parts (by simp [State.ticked]) (fun _ => by simp [State.ticked, State.retained])
      (by simp [State.ticked]) (by simp [State.ticked])
  obtain ⟨hcfg, hlines⟩ := tickEvents_lines s.ticked first s.tb.ms (tickAdvance (decide slewTick) s.tb.slew).1
  rw [localTickEvent_of_running hq, hcount]
  rw [htms, htq, hms] at hlines
  refine ⟨hcfg.trans (by simp [State.ticked]), fun k => ?_⟩
  obtain ⟨heval, hstay⟩ := hlines k
  rw [(hreads k).1, (hreads k).2.1] at heval
  rw [(hreads k).1, (hreads k).2.1] at hstay
  refine ⟨fun hu hp => ?_, hstay⟩
  have hnow : s.ticked.now = s.now + (1000 - s.tb.phase) := by simp [State.ticked]
  rw [← hnow]
  exact evaluated_congr (hreads k) rfl (heval hu hp)

/-! ## The end of a gap wait (R124) -/

theorem exec_gapWaitEnd_line {s : State} {dt : Nat} {k : LineNo} {e : Nat} (hh : s.held = false)
    (he : (s.clockLine k).gapEnd = some e) (hle : e ≤ s.now + dt) (hp : (s.clockLine k).pulse = none)
    (hty : (s.clockCfg k).type ≠ .off) :
    ∃ t, exec (.gapWaitEnd dt k) s = .next t ∧ s.evaluated t k s.tb.quality s.tb.ms (s.now + dt) ∧
      (∀ l, l ≠ k → t.clockLine l = s.clockLine l) ∧
      (s.elapse dt).keepsBut t [.line, .cld, .csv, .counters, .draws] := by
  have hreads : ∀ l, s.sameReads (s.elapse dt) l :=
    sameReads_of_parts (by simp) (fun _ => by simp [State.retained]) (by simp) (by simp)
  have hexp : (s.elapse dt).expired ((s.elapse dt).clockLine k).gapEnd = true := by
    rw [(hreads k).1, he]
    simp [State.expired, hle]
  refine ⟨_, congrArg Host.Outcome.next ((live_running hh ..).trans (if_pos hexp)), ?_, fun l hl => ?_, ?_⟩
  · have := evaluate_evaluated (s := s.elapse dt) (k := k) (by rw [(hreads k).1, hp]) (by rw [(hreads k).2.1]; exact hty)
    exact evaluated_congr (hreads k) rfl (by simpa using this)
  · rw [evaluate_clockLine_ne _ hl, (hreads l).1]
  · intro p hp
    cases p <;> simp [State.samePart] at hp ⊢

/-! ## A step of time (R6, R12) -/

theorem takeStep_lines (s : State) (f : TimeFields) (est : Nat × Word16) (e : Int) (lag : Nat) (b : Bool) :
    (s.takeStep f est e lag b).cld.cfg = (s.stepped f est lag b).cld.cfg ∧ ∀ k : LineNo,
      (((s.stepped f est lag b).clockCfg k).type ≠ .off → ((s.stepped f est lag b).clockLine k).pulse = none →
        (s.stepped f est lag b).evaluated (s.takeStep f est e lag b) k .synced ((carryForward est lag).1 / 1000)
          (s.stepped f est lag b).now) ∧
      (((s.stepped f est lag b).clockCfg k).type = .off ∨ ((s.stepped f est lag b).clockLine k).pulse ≠ none →
        (s.takeStep f est e lag b).clockLine k = (s.stepped f est lag b).clockLine k) := by
  have hq : (s.stepped f est lag b).tb.quality = .synced := by rw [stepped_tb]
  have hms : (s.stepped f est lag b).tb.ms = (carryForward est lag).1 / 1000 := by rw [stepped_tb]
  obtain ⟨w, args, heq, htb, hnow, hcld, hrs, hrecords, hcfg⟩ : ∃ (w : State) (args : List Byte),
      s.takeStep f est e lag b = w.evaluateAll.raise .time 2 args ∧ w.tb = (s.stepped f est lag b).tb ∧
      w.now = (s.stepped f est lag b).now ∧ w.cld = (s.stepped f est lag b).cld ∧
      w.rs = (s.stepped f est lag b).rs ∧ w.csv.records = (s.stepped f est lag b).csv.records ∧
      w.csv.cfg = (s.stepped f est lag b).csv.cfg := by
    obtain ⟨args, he⟩ := takeStep_eq s f est e lag b
    generalize s.stepped f est lag b = v at he
    rw [he]
    split
    · exact ⟨v.bellStart v.tb.day v.tb.ms, args, rfl, by simp, by simp, by simp, by simp, by simp, by simp⟩
    · unfold State.stepEvent inOrder
      split <;> exact ⟨_, args, rfl, by simp, by simp, by simp, by simp, by simp, by simp⟩
  generalize s.stepped f est lag b = v at *
  rw [heq]
  refine ⟨by simp [hcld], fun k => ?_⟩
  have hreads : v.sameReads w k :=
    sameReads_of_parts hcld (fun _ => by rw [State.retained, hrs, State.retained]) hrecords hcfg k
  obtain ⟨heval, hstay⟩ := evaluateAll_evaluated w k
  rw [hreads.1, hreads.2.1, htb, hnow, hq, hms] at heval
  rw [hreads.1, hreads.2.1] at hstay
  have hline : (w.evaluateAll.raise .time 2 args).clockLine k = w.evaluateAll.clockLine k := by simp [State.clockLine]
  exact ⟨fun h hp => evaluated_congr hreads hline (heval h hp), fun h => hline.trans (hstay h)⟩

/-- R12: within the millisecond of the receipt, what a line reads stands in the stepped state as at the receipt. -/
theorem stepped_sameReads {s : State} {lag : Nat} (hlag : s.tb.phase + lag < 1000) (f : TimeFields) (est : Nat × Word16)
    (b : Bool) (k : LineNo) : s.sameReads (s.stepped f est lag b) k ∧ (s.stepped f est lag b).now = s.now + lag ∧
      (s.stepped f est lag b).cld = s.cld := by
  have hpass := passLag_within hlag b
  unfold State.stepped
  rw [hpass]
  exact ⟨sameReads_of_parts (by simp) (fun _ => by simp [State.retained, State.writeBackup]) (by simp) (by simp) k,
    by simp, by simp⟩

/-- R122: the evaluations of a step. -/
theorem exec_time_lines {s : State} {dt : Nat} {h : Hdr} {payload : List Byte} {lag : Word32} {first : Bool} {f : TimeFields}
    (hc : s.canHear .up) (hp : h.port = .up) (hf : timeFields payload = some f)
    (hlag : (s.arrived dt h).tb.phase + lag.toNat < 1000)
    (hsteps : s.tb.quality = .invalid ∨ s.tb.quality = .backup ∨ s.tb.epoch ≠ some f.epoch ∨
      s.mu.node.stepThreshold ≤ ((s.arrived dt h).tb.offsetMs (f.estimate s.tb.linkDelay)).natAbs) :
    ∃ t, exec (.time dt h payload lag first) s = .next t ∧ t.cld.cfg = s.cld.cfg ∧ ∀ k : LineNo,
      ((s.clockCfg k).type ≠ .off → (s.clockLine k).pulse = none →
        s.evaluated t k .synced ((carryForward (f.estimate s.tb.linkDelay) lag.toNat).1 / 1000)
          (s.now + dt + lag.toNat)) ∧
      ((s.clockCfg k).type = .off ∨ (s.clockLine k).pulse ≠ none → t.clockLine k = s.clockLine k) := by
  have harrived : ∀ k, s.sameReads (s.arrived dt h) k :=
    sameReads_of_parts (by simp) (fun _ => by simp [State.retained]) (by simp) (by simp)
  refine ⟨_, exec_time_steps hc hp hf lag first hsteps, ?_⟩
  generalize (s.arrived dt h).tb.offsetMs (f.estimate s.tb.linkDelay) = e
  generalize f.estimate s.tb.linkDelay = est
  have hcopy : ∀ (w : State) q fr x y, (w.copyDown q fr x y).cld = w.cld := by
    simp
  obtain ⟨hcfg, hlines⟩ := takeStep_lines (s.arrived dt h) f est e lag.toNat first
  refine ⟨?_, fun k => ?_⟩
  · obtain ⟨-, -, hcld⟩ := stepped_sameReads hlag f est first 0
    rw [hcopy, hcfg, hcld]
    simp
  · obtain ⟨hreads, hnow, -⟩ := stepped_sameReads hlag f est first k
    have hall := (harrived k).trans hreads
    obtain ⟨heval, hstay⟩ := hlines k
    have harr : (s.arrived dt h).now = s.now + dt := by simp
    rw [hall.1, hall.2.1, hnow, harr] at heval
    rw [hall.1, hall.2.1] at hstay
    have hline : ∀ w q fr x y, (State.copyDown w q fr x y).clockLine k = w.clockLine k := by
      intro w q fr x y
      rw [State.clockLine, hcopy, State.clockLine]
    refine ⟨fun h hp => evaluated_congr hall (hline ..) (heval h hp), fun h => (hline ..).trans (hstay h)⟩

/-- Settles O41, by the evaluation of one line and the independence of the lines in the events that evaluate them all. -/
theorem clockLineEvaluated : Obligations.ClockLineEvaluated := by
  refine ⟨fun ty ms i hty => distance_spec hty ms i, ?_, ?_, ?_⟩
  · intro s dt k e hh he hle hp hty
    exact exec_gapWaitEnd_line hh he hle hp hty
  · intro s first hh hq _
    exact exec_localTick_lines hh hq
  · intro s dt h payload lag first f hc hp hf v est new hlag hsteps
    exact exec_time_lines hc hp hf hlag hsteps

end Sys2Proof.Machine

/-! PROOFS. The statements on page calls: opening, reopening and eviction (R99 to R102), the frames a call takes (R104 to R106),
playout (R107, R108, R111) and the ends of calls (R110 to R113). -/

namespace Sys2Proof.Machine

/-! ## The frames of the Page Engine -/

theorem fits_of_length {payload : List Byte} {n : Nat} (h : payload.length = n) (hn : n ≤ 240) : fits payload = true :=
  decide_eq_true (h.trans_le hn)

theorem exec_pageOpen {payload : List Byte} (hfit : fits payload = true) (dt : Nat) (h : Hdr) (s : State) :
    exec (.pageOpen dt h payload) s =
      .next (live dt (fun t => t.selective 0x03 h payload (fun u => u.takeOpen payload)) s) := by
  change carried (fits payload) _ = _
  rw [hfit]
  rfl

theorem exec_pageClose {payload : List Byte} (hfit : fits payload = true) (dt : Nat) (h : Hdr) (s : State) :
    exec (.pageClose dt h payload) s =
      .next (live dt (fun t => t.selective 0x04 h payload (fun u => u.takeClose payload)) s) := by
  change carried (fits payload) _ = _
  rw [hfit]
  rfl

theorem exec_audio {payload : List Byte} (hfit : fits payload = true) (dt : Nat) (h : Hdr) (s : State) :
    exec (.audio dt h payload) s = .next (live dt (fun t => t.audioFrame h payload) s) := by
  change carried (fits payload) _ = _
  rw [hfit]
  rfl

theorem length_of_openFields {payload : List Byte} {f : OpenFields} (h : openFields payload = some f) :
    payload.length = 18 := by
  unfold openFields at h
  dsimp only at h
  split at h
  · next hg => exact hg.1
  · cases h

/-! ## Calls and channels -/

theorem callOn_of_pe {s t : State} (h : t.pe = s.pe) (channel : Nat) : t.callOn channel = s.callOn channel := by
  simp only [State.callOn, State.call, h]

theorem freeRecord_of_pe {s t : State} (h : t.pe = s.pe) : t.freeRecord = s.freeRecord := by
  simp only [State.freeRecord, State.call, h]

theorem call_of_pe {s t : State} (h : t.pe = s.pe) (r : Fin 8) : t.call r = s.call r := by
  simp only [State.call, h]

theorem freeRecord_eq_none {s : State} (h : ∀ r, s.call r ≠ none) : s.freeRecord = none := by
  rw [State.freeRecord, List.find?_eq_none]
  intro r _
  simpa using h r

/-! ## What a claim act counts -/

/-- The counters that no act on claims and winners counts. -/
def Counter.apartFromOutputs (c : Counter) : Prop :=
  c ≠ .clipped ∧ c ≠ .undelivered ∧ c ≠ .skipped ∧ c ≠ .readingDiscarded

theorem counter_setOut (s : State) (o : Output) (v : OutputState) (c : Counter) : (s.setOut o v).counter c = s.counter c := rfl

section
variable {c : Counter} (h : c.apartFromOutputs)
include h

theorem counter_settleClip (s : State) (o : Output) : (s.settleClip o).counter c = s.counter c := by
  unfold State.settleClip
  split
  · dsimp only
    split
    · rw [counter_count_of_ne _ h.1, counter_setOut]
    · rfl
  · rfl

theorem counter_stopPlay (s : State) (o : Output) : (s.stopPlay o).counter c = s.counter c := by
  rw [State.stopPlay, counter_setOut, counter_settleClip h]

theorem counter_rechoose (s : State) (o : Output) : (s.rechoose o).counter c = s.counter c := by
  unfold State.rechoose
  split
  · rfl
  · rw [State.takeOutput, counter_setOut, counter_stopPlay h, counter_setOut, counter_stopPlay h]

theorem counter_rechooseAll (os : List Output) (s : State) : (rechooseAll os s).counter c = s.counter c := by
  have ⟨_, _, hskip, hdisc⟩ := h
  rw [rechooseAll, counter_settleScan hskip hdisc]
  exact foldl_part (fun s => s.counter c) (fun s o => counter_rechoose h s o) os s

theorem counter_dropClaim (s : State) (src : Source) (o : Output) : (s.dropClaim src o).counter c = s.counter c := by
  unfold State.dropClaim
  split
  · dsimp only
    rw [counter_setOut]
    split
    · rw [counter_setOut, counter_stopPlay h]
    · rfl
  · rfl

theorem counter_addClaim (s : State) (d : Claim) (o : Output) : (s.addClaim d o).counter c = s.counter c := by
  unfold State.addClaim
  dsimp only
  split
  · rw [counter_count_of_ne _ h.2.1, counter_setOut, counter_dropClaim h]
  · rw [counter_setOut, counter_dropClaim h]

theorem counter_foldl_dropClaim (os : List Output) (src : Source) (s : State) :
    (os.foldl (fun s o => s.dropClaim src o) s).counter c = s.counter c :=
  foldl_part (fun s => s.counter c) (fun s o => counter_dropClaim h s src o) os s

theorem counter_foldl_addClaim (os : List Output) (d : Claim) (s : State) :
    (os.foldl (fun s o => s.addClaim d o) s).counter c = s.counter c :=
  foldl_part (fun s => s.counter c) (fun s o => counter_addClaim h s d o) os s

end

/-! ## Opening: claims and counters (R99 to R102) -/

/-- The claim of a call on an output of its zones (R101). -/
def pageClaim (r : Fin 8) (priority : Nat) : Claim := ⟨.page r, pageClass priority, .page, none⟩

/-- The claims of an output but those of a record's call. -/
def State.claimsBut (s : State) (r : Fin 8) (o : Output) : List Claim :=
  (s.out o).claims.filter (fun d => decide (d.source ≠ .page r))

/-- R101: a creation claims its zones, and no other output's list changes. -/
theorem createCall_claims (s : State) (r : Fin 8) (f : OpenFields) (zones : List Output) (o : Output) :
    (o ∈ zones → ((s.createCall r f zones).out o).claims = s.claimsBut r o ++ [pageClaim r f.priority]) ∧
    (o ∉ zones → (s.createCall r f zones).out o = s.out o) := by
  have hout : ((s.setCall r (some (s.newCall f zones))).opened).out o = s.out o := rfl
  rw [createCall_eq, State.pageClaims]
  constructor
  · intro ho
    rw [(rechooseAll_out ..).1, foldl_addClaim_claims ho, hout]
    rfl
  · intro ho
    rw [rechooseAll_out_ne ho, foldl_addClaim_out_ne ho, hout]

/-- R100: a reopen remakes the claims on the zones, takes them from the zones left, and touches no other list. -/
theorem reopenCall_claims (s : State) (r : Fin 8) (c : Call) (f : OpenFields) (zones : List Output) (o : Output) :
    (o ∈ zones → ((s.reopenCall r c f zones).out o).claims = s.claimsBut r o ++ [pageClaim r f.priority]) ∧
    (o ∈ c.zones → o ∉ zones → ((s.reopenCall r c f zones).out o).claims = s.claimsBut r o) ∧
    (o ∉ zones → o ∉ c.zones → (s.reopenCall r c f zones).out o = s.out o) := by
  unfold State.reopenCall State.pageClaims
  dsimp only
  generalize hw : s.setCall r _ = w
  have hout : w.out o = s.out o := hw ▸ rfl
  have hleft : o ∈ c.zones.filter (fun o => decide (o ∉ zones)) ↔ o ∈ c.zones ∧ o ∉ zones := by simp
  refine ⟨fun ho => ?_, fun hc ho => ?_, fun ho hc => ?_⟩
  · rw [(rechooseAll_out ..).1, foldl_addClaim_claims ho, foldl_dropClaim_out_ne (fun hl => (hleft.mp hl).2 ho), hout]
    rfl
  · rw [(rechooseAll_out ..).1, foldl_addClaim_out_ne ho, foldl_dropClaim_claims (hleft.mpr ⟨hc, ho⟩), hout]
    rfl
  · have hl := fun hl => hc (hleft.mp hl).1
    have hall : o ∉ zones ++ c.zones.filter (fun o => decide (o ∉ zones)) := by
      rw [List.mem_append]
      exact fun h => h.elim ho hl
    rw [rechooseAll_out_ne hall, foldl_addClaim_out_ne ho, foldl_dropClaim_out_ne hl, hout]

/-- R113: a close takes the call's claims from its zones, and touches no other output. -/
theorem closeCall_claims (s : State) (r : Fin 8) (o : Output) :
    (o ∈ s.callZones r → ((s.closeCall r).out o).claims = s.claimsBut r o) ∧
    (o ∉ s.callZones r → (s.closeCall r).out o = s.out o) := by
  have hzones : [r].flatMap s.callZones = s.callZones r := by simp
  have hrelease : [r].foldl State.releaseCall s = s.releaseCall r := rfl
  rw [State.closeCall, State.closeCalls, hzones, hrelease, State.releaseCall]
  constructor
  · intro ho
    rw [(rechooseAll_out ..).1, out_setCall, foldl_dropClaim_claims ho]
    rfl
  · intro ho
    rw [rechooseAll_out_ne ho, out_setCall, foldl_dropClaim_out_ne ho]

theorem createCall_keepsBut (s : State) (r : Fin 8) (f : OpenFields) (zones : List Output) :
    s.keepsBut (s.createCall r f zones) [.za, .pe, .csv, .counters, .draws] := by
  rw [createCall_eq]
  intro p hp
  cases p <;> simp [State.samePart, State.pageClaims, State.opened] at hp ⊢

theorem reopenCall_keepsBut (s : State) (r : Fin 8) (c : Call) (f : OpenFields) (zones : List Output) :
    s.keepsBut (s.reopenCall r c f zones) [.za, .pe, .csv, .counters, .draws] := by
  unfold State.reopenCall
  intro p hp
  cases p <;> simp [State.samePart, State.pageClaims] at hp ⊢

theorem closeCalls_keepsBut (s : State) (rs : List (Fin 8)) :
    s.keepsBut (s.closeCalls rs) [.za, .pe, .csv, .counters, .draws] := by
  intro p hp
  cases p <;> simp [State.samePart] at hp ⊢

theorem countResolution_keepsBut (s : State) (t : Target) (r : Resolved) : s.keepsBut (s.countResolution t r) [.counters] := by
  unfold State.countResolution
  intro p hp
  cases p <;> (split <;> simp [State.samePart] at hp ⊢)

/-- The state in which an open's resolution has been counted. -/
def State.resolvedFor (s : State) (f : OpenFields) : State := s.countResolution f.target (s.zm.resolvePage f.target)

theorem resolvedFor_keepsBut (s : State) (f : OpenFields) : s.keepsBut (s.resolvedFor f) [.counters] :=
  countResolution_keepsBut s _ _

section
variable {s : State} {payload : List Byte} {f : OpenFields} (hf : openFields payload = some f)
  (hset : (s.zm.resolvePage f.target).set ≠ [])
include hf hset

/-- R100: an open on the channel of a call is taken, behind the count of its resolution, as a reopen. -/
theorem takeOpen_reopens {r : Fin 8} {c : Call} (hon : s.callOn f.channel = some r) (hr : s.call r = some c) :
    s.takeOpen payload = (s.resolvedFor f).reopenCall r c f (s.zm.resolvePage f.target).set := by
  have hpe : (s.resolvedFor f).pe = s.pe := resolvedFor_keepsBut s f .pe (by simp)
  have hon' : (s.resolvedFor f).callOn f.channel = some r := (callOn_of_pe hpe _).trans hon
  have hr' : (s.resolvedFor f).call r = some c := (call_of_pe hpe r).trans hr
  unfold State.resolvedFor at *
  simp only [State.takeOpen, hf, hset, if_false, hon', hr']

/-- R101: an open on a free channel is taken as a creation while a record is free. -/
theorem takeOpen_creates {r : Fin 8} (hon : s.callOn f.channel = none) (hfree : s.freeRecord = some r) :
    s.takeOpen payload = (s.resolvedFor f).createCall r f (s.zm.resolvePage f.target).set := by
  have hpe : (s.resolvedFor f).pe = s.pe := resolvedFor_keepsBut s f .pe (by simp)
  have hon' : (s.resolvedFor f).callOn f.channel = none := (callOn_of_pe hpe _).trans hon
  have hfree' : (s.resolvedFor f).freeRecord = some r := (freeRecord_of_pe hpe).trans hfree
  unfold State.resolvedFor at *
  simp only [State.takeOpen, hf, hset, if_false, hon', hfree']

/-- R102: an open on a free channel is taken as an eviction while no record is free. -/
theorem takeOpen_evicts (hon : s.callOn f.channel = none) (hfree : s.freeRecord = none) :
    s.takeOpen payload = (s.resolvedFor f).evictFor f (s.zm.resolvePage f.target).set := by
  have hpe : (s.resolvedFor f).pe = s.pe := resolvedFor_keepsBut s f .pe (by simp)
  have hon' : (s.resolvedFor f).callOn f.channel = none := (callOn_of_pe hpe _).trans hon
  have hfree' : (s.resolvedFor f).freeRecord = none := (freeRecord_of_pe hpe).trans hfree
  unfold State.resolvedFor at *
  simp only [State.takeOpen, hf, hset, if_false, hon', hfree']

end

/-! ## Opens on the line -/

/-- R99: a matched open leaves what its acceptance leaves, behind its copy for DOWN. -/
theorem pageOpen_owner {s : State} {dt : Nat} {h : Hdr} {payload : List Byte} {f : OpenFields} (hc : s.canHear .up)
    (hp : h.port = .up) (hsel : (s.arrived dt h).selected h = true) (hf : openFields payload = some f) :
    ∃ t, exec (.pageOpen dt h payload) s = .next t ∧
      ((s.arrived dt h).takeOpen payload).keepsBut t [.line, .counters] ∧
      ∀ c, c ≠ .dnFull → t.counter c = ((s.arrived dt h).takeOpen payload).counter c := by
  have hrun := receive_proper (s := s) (h := h) (act := fun t =>
    (if t.selected h then t.takeOpen payload else t).copyDown .downNormal (h.frame 0x03 payload) t.localCount .relayDown)
    (by rw [hp]; exact hc) dt
  rw [hp] at hrun
  rw [exec_pageOpen (fits_of_length (length_of_openFields hf) (by omega)), live_running hc.1, State.selective, hrun]
  refine ⟨_, rfl, ?_⟩
  rw [if_pos hsel]
  exact ⟨copyDown_keepsBut _ _ _ _ _, fun c hne => counter_copyDown_of_ne _ hne _ _ _⟩

theorem resolvedFor_counter (s : State) (f : OpenFields) {c : Counter} (hbad : c ≠ .targetBad) (hover : c ≠ .mapOverflow) :
    (s.resolvedFor f).counter c = s.counter c := by
  unfold State.resolvedFor State.countResolution
  rw [counter_countN_of_ne _ _ hover]
  split
  · rw [counter_count_of_ne _ hbad]
  · rfl

/-- What the acts of an open read stands in the state of its arrival, its resolution counted, as it did before. -/
theorem arrived_resolvedFor (s : State) (dt : Nat) (h : Hdr) (f : OpenFields) :
    ((s.arrived dt h).resolvedFor f).pe = s.pe ∧ ((s.arrived dt h).resolvedFor f).za = s.za ∧
      ((s.arrived dt h).resolvedFor f).now = s.now + dt := by
  have hkeeps := resolvedFor_keepsBut (s.arrived dt h) f
  have hpe : ((s.arrived dt h).resolvedFor f).pe = (s.arrived dt h).pe := hkeeps .pe (by simp)
  have hza : ((s.arrived dt h).resolvedFor f).za = (s.arrived dt h).za := hkeeps .za (by simp)
  have hnow : ((s.arrived dt h).resolvedFor f).now = (s.arrived dt h).now := hkeeps .now (by simp)
  rw [hpe, hza, hnow]
  simp

theorem openOrder_createCall (s : State) (r : Fin 8) (f : OpenFields) (zones : List Output) :
    (s.createCall r f zones).pe.openOrder = s.pe.openOrder + 1 := by
  rw [createCall_eq]
  simp [State.pageClaims, State.opened, State.setCall]

/-- R101, R103: the state, the chime and the silence timer of a new call. -/
theorem newCall_chime (s : State) (f : OpenFields) (zones : List Output) :
    (f.chime = 0xFF → (s.newCall f zones).state = .prefill ∧ (s.newCall f zones).chime = none ∧
      (s.newCall f zones).silenceEnd = some (s.now + 2000000)) ∧
    (f.chime ≠ 0xFF → (s.newCall f zones).state = .chime ∧ (s.newCall f zones).silenceEnd = none ∧
      (s.newCall f zones).chime = some (s.za.tones.toList.getD f.chime.toNat .factory)) := by
  unfold State.newCall
  constructor
  · intro h
    simp [h, Config.silenceUs]
  · intro h
    have hchime : ¬f.chime = 255#8 := h
    simp [hchime]

/-- Settles O34, by the creation of a call in the state in which the resolution has been counted. -/
theorem pageOpened : Obligations.PageOpened := by
  intro s dt h payload f r hc hp hsel hf hset hon hfree set
  obtain ⟨t, hrun, hkeeps, -⟩ := pageOpen_owner hc hp hsel hf
  have hzm : (s.arrived dt h).zm = s.zm := by simp
  have hvpe : (s.arrived dt h).pe = s.pe := by simp
  have htake : (s.arrived dt h).takeOpen payload = ((s.arrived dt h).resolvedFor f).createCall r f set := by
    rw [takeOpen_creates hf (by rw [hzm]; exact hset) ((callOn_of_pe hvpe _).trans hon) ((freeRecord_of_pe hvpe).trans hfree),
      hzm]
  rw [htake] at hkeeps
  obtain ⟨hpe, hza, hnow⟩ := arrived_resolvedFor s dt h f
  have hresolved := resolvedFor_keepsBut (s.arrived dt h) f
  generalize (s.arrived dt h).resolvedFor f = u at *
  have hcall : ∀ k, t.call k = if k = r then some (u.newCall f set) else s.call k := fun k => by
    rw [hkeeps.call (by decide), call_createCall, call_of_pe hpe]
  have hout : ∀ o, t.out o = (u.createCall r f set).out o := hkeeps.out (by decide)
  obtain ⟨hnone, hchime⟩ := newCall_chime u f set
  rw [hnow] at hnone
  rw [hza] at hchime
  have htpe : t.pe.openOrder = s.pe.openOrder + 1 := by
    rw [show t.pe = (u.createCall r f set).pe from hkeeps .pe (by simp), openOrder_createCall, hpe]
  refine ⟨t, u.newCall f set, hrun, by rw [hcall, if_pos rfl], rfl, rfl, rfl, rfl, rfl, rfl, rfl, ?_, htpe, hnone, hchime,
    fun k hk => by rw [hcall, if_neg hk], fun o ho => ?_, fun o ho => ?_, ?_⟩
  · exact congrArg PageEngine.openOrder hpe
  · rw [hout, (createCall_claims u r f set o).1 ho]
    exact List.mem_append_right _ (List.mem_singleton.mpr rfl)
  · rw [hout, (createCall_claims u r f set o).2 ho, out_of_za hza]
  · exact ((hresolved.append (createCall_keepsBut u r f set)).append hkeeps).mono (by decide)

end Sys2Proof.Machine

/-! PROOFS. The statement on the reopening of a call and on eviction (R100, R102). -/

namespace Sys2Proof.Machine

/-! ## Which call is evicted (R102) -/

/-- One record's turn in the choice of the call to evict. -/
def State.evictStep (s : State) (best : Option (Fin 8 × Call)) (r : Fin 8) : Option (Fin 8 × Call) :=
  match s.call r, best with
  | none, _ => best
  | some c, none => some (r, c)
  | some c, some (_, b) => if s.evictBefore c b then some (r, c) else best

theorem evictable_eq_foldl (s : State) : s.evictable = allRecords.foldl s.evictStep none := rfl

/-- What stands as best is a call of its record. -/
def State.isCall (s : State) (best : Option (Fin 8 × Call)) : Prop := ∀ k d, best = some (k, d) → s.call k = some d

theorem evictStep_isCall {s : State} {best : Option (Fin 8 × Call)} (h : s.isCall best) (r : Fin 8) :
    s.isCall (s.evictStep best r) := by
  intro k d he
  unfold State.evictStep at he
  cases hr : s.call r with
  | none => exact h k d (by simpa [hr] using he)
  | some c =>
    rw [hr] at he
    rcases best with _ | ⟨j, b⟩
    · cases he
      exact hr
    · dsimp only at he
      split at he
      · cases he
        exact hr
      · exact h k d he

theorem foldl_evictStep_isCall {s : State} (rs : List (Fin 8)) {best : Option (Fin 8 × Call)} (h : s.isCall best) :
    s.isCall (rs.foldl s.evictStep best) := by
  induction rs generalizing best with
  | nil => exact h
  | cons r rs ih => exact ih (evictStep_isCall h r)

theorem call_of_evictable {s : State} {k : Fin 8} {d : Call} (h : s.evictable = some (k, d)) : s.call k = some d := by
  rw [evictable_eq_foldl] at h
  exact foldl_evictStep_isCall allRecords (fun _ _ he => by cases he) k d h

theorem evictStep_ne_none {s : State} {best : Option (Fin 8 × Call)} {r : Fin 8} (h : best ≠ none ∨ s.call r ≠ none) :
    s.evictStep best r ≠ none := by
  unfold State.evictStep
  split
  · next hr => exact h.resolve_right fun hn => hn hr
  · simp
  · split <;> simp

theorem foldl_evictStep_ne_none {s : State} (rs : List (Fin 8)) {best : Option (Fin 8 × Call)} (h : best ≠ none) :
    rs.foldl s.evictStep best ≠ none := by
  induction rs generalizing best with
  | nil => exact h
  | cons r rs ih => exact ih (evictStep_ne_none (.inl h))

theorem evictable_ne_none {s : State} (h : s.call 0 ≠ none) : s.evictable ≠ none := by
  rw [evictable_eq_foldl, show allRecords = 0 :: (List.finRange 8).tail from rfl, List.foldl_cons]
  exact foldl_evictStep_ne_none _ (evictStep_ne_none (.inr h))

/-- The call of record r goes before every other. -/
def State.evictsFirst (s : State) (r : Fin 8) (c : Call) : Prop :=
  ∀ k d, k ≠ r → s.call k = some d → s.evictBefore c d = true ∧ s.evictBefore d c = false

/-- Among the records whose turn has come or comes, the one that goes before every other is left as best. -/
theorem foldl_evictStep_of_first {s : State} {r : Fin 8} {c : Call} (hr : s.call r = some c) (hfirst : s.evictsFirst r c)
    (rs : List (Fin 8)) {best : Option (Fin 8 × Call)} (hbest : s.isCall best) (hmem : best = some (r, c) ∨ r ∈ rs) :
    rs.foldl s.evictStep best = some (r, c) := by
  induction rs generalizing best with
  | nil => simpa using hmem
  | cons k rs ih =>
    refine ih (evictStep_isCall hbest k) ?_
    by_cases hk : k = r
    · subst hk
      refine .inl ?_
      unfold State.evictStep
      rw [hr]
      rcases best with _ | ⟨j, b⟩
      · rfl
      · have hj := hbest j b rfl
        by_cases hjk : j = k
        · subst hjk
          have hb : b = c := Option.some.inj (hj.symm.trans hr)
          subst hb
          dsimp only
          split <;> rfl
        · exact if_pos (hfirst j b hjk hj).1
    · obtain hb | hin := hmem
      · refine .inl ?_
        subst hb
        unfold State.evictStep
        cases hd : s.call k with
        | none => rfl
        | some d =>
          dsimp only
          rw [(hfirst k d hk hd).2]
          rfl
      · exact .inr ((List.mem_cons.mp hin).resolve_left (Ne.symm hk))

theorem evictable_of_first {s : State} {r : Fin 8} {c : Call} (hr : s.call r = some c) (hfirst : s.evictsFirst r c) :
    s.evictable = some (r, c) :=
  foldl_evictStep_of_first hr hfirst allRecords (fun _ _ he => by cases he) (.inr (List.mem_finRange r))

/-- R102: the less urgent, or the later opened of the equally urgent. -/
theorem evictsFirst_of_least {s : State} {r : Fin 8} {c : Call} (h : ∀ k d, k ≠ r → s.call k = some d →
    d.priority < c.priority ∨ d.priority = c.priority ∧ s.openAge c < s.openAge d) : s.evictsFirst r c := by
  intro k d hk hd
  unfold State.evictBefore
  obtain hlt | ⟨heq, hage⟩ := h k d hk hd
  · simp [hlt, Nat.lt_asymm hlt, hlt.ne]
  · simp [heq, hage, Nat.lt_asymm hage]

/-! ## The three outcomes of an open on a channel (R100, R102) -/

/-- The state that a reopened call enters (R100). -/
theorem reopened_eq (c : Call) (now : Nat) (f : OpenFields) (zones : List Output) :
    c.reopened now f zones = { c with
      priority := f.priority, zones := zones, gain := f.gain,
      state := match c.state with
        | .drain => if 3 ≤ c.fifo.length then .play else .prefill
        | st => st,
      silenceEnd := if c.state = .chime then none else some (now + 2000000) } := by
  unfold Call.reopened reopenedState
  cases h : c.state <;> simp [Config.silenceUs]

/-- The evicted call's record is closed, the eviction counted and raised (R102). -/
def State.evicted (s : State) (r : Fin 8) (c : Call) (f : OpenFields) : State :=
  ((s.closeCall r).count .evicted).raise .page 1 (enc8 c.channel ++ enc8 c.priority ++ enc8 f.channel)

theorem evictFor_of_first {s : State} {r : Fin 8} {c : Call} {f : OpenFields} (hr : s.call r = some c)
    (hfirst : s.evictsFirst r c) (hlt : f.priority < c.priority) (zones : List Output) :
    s.evictFor f zones = (s.evicted r c f).createCall r f zones := by
  unfold State.evictFor
  rw [evictable_of_first hr hfirst]
  exact if_pos hlt

theorem evictFor_of_urgent {s : State} {f : OpenFields} (hcalls : ∀ r, s.call r ≠ none)
    (hurgent : ∀ r c, s.call r = some c → c.priority ≤ f.priority) (zones : List Output) :
    s.evictFor f zones = (s.count .openIgnored).raise .page 2 (enc8 f.channel ++ enc8 f.priority) := by
  unfold State.evictFor
  split
  · next r c he => exact if_neg (Nat.not_lt.mpr (hurgent r c (call_of_evictable he)))
  · next he => exact absurd he (evictable_ne_none (hcalls 0))

theorem evicted_keepsBut (s : State) (r : Fin 8) (c : Call) (f : OpenFields) :
    s.keepsBut (s.evicted r c f) [.line, .za, .pe, .csv, .counters, .draws] := by
  unfold State.evicted
  intro p hp
  cases p <;> simp [State.samePart] at hp ⊢

theorem evicted_parts (s : State) (r : Fin 8) (c : Call) (f : OpenFields) :
    (s.evicted r c f).za = (s.closeCall r).za ∧ (s.evicted r c f).pe = (s.closeCall r).pe ∧
      (s.evicted r c f).now = s.now := by
  simp [State.evicted]

theorem claimsBut_idem {s t : State} {r : Fin 8} {o : Output} (h : (t.out o).claims = s.claimsBut r o) :
    t.claimsBut r o = s.claimsBut r o := by
  rw [State.claimsBut, h, State.claimsBut, List.filter_filter]
  simp

/-- R102, R113, R101: the claims once a call has been evicted and another stands in its record. -/
theorem evictedThenCreated_claims {s : State} {r : Fin 8} {c : Call} (hr : s.call r = some c) (f : OpenFields)
    (zones : List Output) (o : Output) :
    (o ∈ zones → (((s.evicted r c f).createCall r f zones).out o).claims = s.claimsBut r o ++ [pageClaim r f.priority]) ∧
    (o ∈ c.zones → o ∉ zones → (((s.evicted r c f).createCall r f zones).out o).claims = s.claimsBut r o) ∧
    (o ∉ zones → o ∉ c.zones → (((s.evicted r c f).createCall r f zones).out o).claims = (s.out o).claims) := by
  have hzones : s.callZones r = c.zones := by rw [State.callZones, hr]
  obtain ⟨hin, hnot⟩ := closeCall_claims s r o
  rw [hzones] at hin hnot
  have hout : (s.evicted r c f).out o = (s.closeCall r).out o := out_of_za (evicted_parts s r c f).1 o
  rw [← hout] at hin hnot
  have hbut : (s.evicted r c f).claimsBut r o = s.claimsBut r o := by
    by_cases ho : o ∈ c.zones
    · exact claimsBut_idem (hin ho)
    · rw [State.claimsBut, hnot ho, State.claimsBut]
  obtain ⟨hnew, hold⟩ := createCall_claims (s.evicted r c f) r f zones o
  exact ⟨fun ho => by rw [hnew ho, hbut], fun hc ho => by rw [hold ho, hin hc], fun ho hc => by rw [hold ho, hnot hc]⟩

theorem call_evicted (s : State) (r : Fin 8) (c : Call) (f : OpenFields) (k : Fin 8) :
    (s.evicted r c f).call k = if k = r then none else s.call k := by
  rw [call_of_pe (evicted_parts s r c f).2.1, State.closeCall, call_closeCalls]
  simp

theorem evicted_counter (s : State) (r : Fin 8) (c : Call) (f : OpenFields) (zones : List Output) :
    ((s.evicted r c f).createCall r f zones).counter .evicted = min 65535 (s.counter .evicted + 1) := by
  have happart : Counter.apartFromOutputs .evicted := by unfold Counter.apartFromOutputs; decide
  have hclose : (s.closeCall r).counter .evicted = s.counter .evicted := by
    rw [State.closeCall, State.closeCalls, counter_rechooseAll happart]
    exact counter_foldl_dropClaim happart _ _ s
  rw [createCall_eq, counter_rechooseAll happart, State.pageClaims, counter_foldl_addClaim happart]
  change (s.evicted r c f).counter .evicted = _
  rw [State.evicted, counter_raise_of_ne _ (by decide) (by decide), State.counter_count_self, hclose]

section
variable {s : State} {dt : Nat} {h : Hdr} {payload : List Byte} {f : OpenFields} (hc : s.canHear .up) (hp : h.port = .up)
  (hsel : (s.arrived dt h).selected h = true) (hf : openFields payload = some f)
  (hset : (s.zm.resolvePage f.target).set ≠ [])
include hc hp hsel hf hset

/-- R100: a reopen on the line. -/
theorem open_reopens {r : Fin 8} {c : Call} (hon : s.callOn f.channel = some r) (hr : s.call r = some c) :
    ∃ t, exec (.pageOpen dt h payload) s = .next t ∧
      (((s.arrived dt h).resolvedFor f).reopenCall r c f (s.zm.resolvePage f.target).set).keepsBut t [.line, .counters] := by
  obtain ⟨t, hrun, hkeeps, -⟩ := pageOpen_owner hc hp hsel hf
  have hzm : (s.arrived dt h).zm = s.zm := by simp
  have hvpe : (s.arrived dt h).pe = s.pe := by simp
  rw [takeOpen_reopens hf (by rw [hzm]; exact hset) ((callOn_of_pe hvpe _).trans hon) ((call_of_pe hvpe r).trans hr), hzm]
    at hkeeps
  exact ⟨t, hrun, hkeeps⟩

/-- R102: an open with every record taken, on the line. -/
theorem open_evicts (hon : s.callOn f.channel = none) (hcalls : ∀ r, s.call r ≠ none) :
    ∃ t, exec (.pageOpen dt h payload) s = .next t ∧
      (((s.arrived dt h).resolvedFor f).evictFor f (s.zm.resolvePage f.target).set).keepsBut t [.line, .counters] ∧
      ∀ c, c ≠ .dnFull → t.counter c =
        (((s.arrived dt h).resolvedFor f).evictFor f (s.zm.resolvePage f.target).set).counter c := by
  obtain ⟨t, hrun, hkeeps, hcount⟩ := pageOpen_owner hc hp hsel hf
  have hzm : (s.arrived dt h).zm = s.zm := by simp
  have hvpe : (s.arrived dt h).pe = s.pe := by simp
  rw [takeOpen_evicts hf (by rw [hzm]; exact hset) ((callOn_of_pe hvpe _).trans hon)
    ((freeRecord_of_pe hvpe).trans (freeRecord_eq_none hcalls)), hzm] at hkeeps hcount
  exact ⟨t, hrun, hkeeps, hcount⟩

end

theorem claimsBut_of_za {s t : State} (h : t.za = s.za) (r : Fin 8) (o : Output) : t.claimsBut r o = s.claimsBut r o := by
  rw [State.claimsBut, out_of_za h, State.claimsBut]

theorem openAge_of_pe {s t : State} (h : t.pe = s.pe) (c : Call) : t.openAge c = s.openAge c := by
  rw [State.openAge, h, State.openAge]

/-- Settles O16, by the reopen, the eviction and the refusal in the state in which the resolution has been counted. -/
theorem callsRetaken : Obligations.CallsRetaken := by
  intro s dt h payload f hc hp hsel hf hset set v other new
  obtain ⟨hpe, hza, hnow⟩ := arrived_resolvedFor s dt h f
  have hresolved := resolvedFor_keepsBut (s.arrived dt h) f
  refine ⟨fun r c hon hr => ?_, fun hon hcalls => ⟨fun r c hr hlt hleast => ?_, fun hurgent => ?_⟩⟩
  · obtain ⟨t, hrun, hkeeps⟩ := open_reopens hc hp hsel hf hset hon hr
    generalize (s.arrived dt h).resolvedFor f = u at *
    have hout : ∀ o, t.out o = (u.reopenCall r c f set).out o := hkeeps.out (by decide)
    have hcall : ∀ k, t.call k = if k = r then some (c.reopened u.now f set) else s.call k := fun k => by
      rw [hkeeps.call (by decide), call_reopenCall, call_of_pe hpe]
    have horder : (u.reopenCall r c f set).pe.openOrder = u.pe.openOrder := by
      simp [State.reopenCall, State.pageClaims, State.setCall]
    have hclaims := reopenCall_claims u r c f set
    simp only [claimsBut_of_za hza, out_of_za hza] at hclaims
    refine ⟨t, hrun, by rw [hcall, if_pos rfl, hnow]; exact congrArg some (reopened_eq c _ f set), fun k hk => by rw [hcall, if_neg hk], ?_,
      fun o ho => by rw [hout, (hclaims o).1 ho]; rfl, fun o hoc ho => by rw [hout, (hclaims o).2.1 hoc ho]; rfl,
      fun o ho hoc => by rw [hout, (hclaims o).2.2 ho hoc], ?_⟩
    · rw [show t.pe = (u.reopenCall r c f set).pe from hkeeps .pe (by simp), horder, hpe]
    · exact ((hresolved.append (reopenCall_keepsBut u r c f set)).append hkeeps).mono (by decide)
  · obtain ⟨t, hrun, hkeeps, hcount⟩ := open_evicts hc hp hsel hf hset hon hcalls
    have hcounted : ((s.arrived dt h).resolvedFor f).counter .evicted = s.counter .evicted := by
      rw [resolvedFor_counter _ _ (by decide) (by decide),
        counter_arrived_of_ne _ (by decide) (by decide) (by decide)]
    generalize (s.arrived dt h).resolvedFor f = u at *
    have hur : u.call r = some c := by rw [call_of_pe hpe, hr]
    have hfirst : u.evictsFirst r c := evictsFirst_of_least fun k d hk hd => by
      rw [openAge_of_pe hpe, openAge_of_pe hpe]
      exact hleast k d hk (call_of_pe hpe k ▸ hd)
    rw [evictFor_of_first hur hfirst hlt] at hkeeps hcount
    obtain ⟨-, hepe, henow⟩ := evicted_parts u r c f
    have horder : (u.evicted r c f).pe.openOrder = s.pe.openOrder := by
      have hrelease : (u.releaseCall r).pe.openOrder = u.pe.openOrder := by
        simp [State.releaseCall, State.setCall]
      rw [hepe, ← hpe, ← hrelease]
      simp [State.closeCall, State.closeCalls]
    have hout : ∀ o, t.out o = ((u.evicted r c f).createCall r f set).out o := hkeeps.out (by decide)
    have hcall : ∀ k, t.call k = if k = r then some ((u.evicted r c f).newCall f set) else s.call k := fun k => by
      rw [hkeeps.call (by decide), call_createCall, call_evicted, call_of_pe hpe]
      split <;> rfl
    have hclaims := evictedThenCreated_claims hur f set
    simp only [claimsBut_of_za hza, out_of_za hza] at hclaims
    obtain ⟨hnone, hchime⟩ := newCall_chime (u.evicted r c f) f set
    rw [henow, hnow] at hnone
    refine ⟨t, (u.evicted r c f).newCall f set, hrun, by rw [hcall, if_pos rfl], rfl, rfl, rfl, rfl, rfl, rfl, rfl, rfl,
      horder, ?_, fun hx => ⟨(hnone hx).1, (hnone hx).2.2⟩, fun hx => ⟨(hchime hx).1, (hchime hx).2.1⟩,
      fun k hk => by rw [hcall, if_neg hk], ?_, fun o ho => by rw [hout, (hclaims o).1 ho]; rfl,
      fun o hoc ho => by rw [hout, (hclaims o).2.1 hoc ho]; rfl, fun o ho hoc => by rw [hout, (hclaims o).2.2 ho hoc], ?_⟩
    · rw [show t.pe = ((u.evicted r c f).createCall r f set).pe from hkeeps .pe (by simp), openOrder_createCall, horder]
    · rw [hcount _ (by decide), evicted_counter, hcounted]
    · exact (((hresolved.append (evicted_keepsBut u r c f)).append (createCall_keepsBut _ r f set)).append hkeeps).mono
        (by decide)
  · obtain ⟨t, hrun, hkeeps, hcount⟩ := open_evicts hc hp hsel hf hset hon hcalls
    have hcounted : ((s.arrived dt h).resolvedFor f).counter .openIgnored = s.counter .openIgnored := by
      rw [resolvedFor_counter _ _ (by decide) (by decide),
        counter_arrived_of_ne _ (by decide) (by decide) (by decide)]
    generalize (s.arrived dt h).resolvedFor f = u at *
    have hignored := evictFor_of_urgent (s := u) (f := f) (fun r => by rw [call_of_pe hpe]; exact hcalls r)
      (fun r c hr => hurgent r c (call_of_pe hpe r ▸ hr)) set
    rw [hignored] at hkeeps hcount
    refine ⟨t, hrun, ?_, ?_⟩
    · rw [hcount _ (by decide), counter_raise_of_ne _ (by decide) (by decide), State.counter_count_self, hcounted]
    · exact (((hresolved.append (count_keepsBut u .openIgnored [.counters] (by simp))).append
        (raise_keepsBut (u.count .openIgnored) .page 2 _)).append hkeeps).mono (by decide)

end Sys2Proof.Machine

/-! PROOFS. The statements on the closing of calls (R110, R112, R113), on the frames they take (R104 to R106) and on playout
(R107, R108, R111). -/

namespace Sys2Proof.Machine

/-! ## Closing (R110, R113) -/

theorem not_page_of_claimsBut {s : State} {r : Fin 8} {o : Output} {d : Claim} (h : d ∈ s.claimsBut r o) :
    d.source ≠ .page r := by
  simpa using (List.mem_filter.mp h).2

/-- R113: what a close of one call leaves. -/
theorem closeCall_closed {s : State} {r : Fin 8} {c : Call} (hr : s.call r = some c) :
    (s.closeCall r).call r = none ∧ (∀ k, k ≠ r → (s.closeCall r).call k = s.call k) ∧
      (∀ o ∈ c.zones, ∀ d ∈ ((s.closeCall r).out o).claims, d.source ≠ .page r) ∧
      (∀ o, o ∉ c.zones → (s.closeCall r).out o = s.out o) ∧
      s.keepsBut (s.closeCall r) [.za, .pe, .csv, .counters, .draws] := by
  have hzones : s.callZones r = c.zones := by rw [State.callZones, hr]
  have hclaims := closeCall_claims s r
  rw [hzones] at hclaims
  refine ⟨by simp [State.closeCall], fun k hk => by simp [State.closeCall, hk], fun o ho d hd => ?_,
    fun o ho => (hclaims o).2 ho, closeCalls_keepsBut s [r]⟩
  rw [(hclaims o).1 ho] at hd
  exact not_page_of_claimsBut hd

/-- R110: what a good close makes of a call that is not yet in DRAIN. -/
theorem takeClose_of_call {s : State} {payload : List Byte} {r : Fin 8} {c : Call} (hlen : payload.length = 18)
    (hch : (byteAt payload 0).toNat ≤ 15) (hon : s.callOn (byteAt payload 0).toNat = some r) (hr : s.call r = some c) :
    (c.state = .chime ∨ (c.state = .prefill ∨ c.state = .play) ∧ c.fifo = [] → s.takeClose payload = s.closeCall r) ∧
    (c.state = .prefill ∨ c.state = .play → c.fifo ≠ [] →
      s.takeClose payload = s.setCall r (some { c with state := .drain, silenceEnd := none })) := by
  unfold State.takeClose
  rw [if_pos ⟨hlen, hch⟩, hon]
  dsimp only
  rw [hr]
  constructor
  · rintro (h | ⟨h | h, hfifo⟩)
    · simp [h]
    · simp [h, hfifo]
    · simp [h, hfifo]
  · rintro (h | h) hfifo
    · simp [h, hfifo]
    · simp [h, hfifo]

theorem setCall_keepsBut (s : State) (r : Fin 8) (c : Option Call) : s.keepsBut (s.setCall r c) [.pe] := by
  intro p hp
  cases p <;> simp [State.samePart] at hp ⊢

/-- Settles O35, by the two acts of a close. -/
theorem pageClosed : Obligations.PageClosed := by
  intro s dt h payload r c hc hp hsel hlen hch hon hr
  obtain ⟨t, hrun, -, hkeeps⟩ := selective_owner hc hp hsel 0x04 payload fun u => u.takeClose payload
  rw [exec_pageClose (fits_of_length hlen (by omega)), hrun]
  have hpe : (s.arrived dt h).pe = s.pe := by simp
  have hza : (s.arrived dt h).za = s.za := by simp
  have hvr : (s.arrived dt h).call r = some c := by rw [call_of_pe hpe, hr]
  obtain ⟨hcloses, hdrains⟩ := takeClose_of_call hlen hch (by rw [callOn_of_pe hpe, hon]) hvr
  generalize s.arrived dt h = v at *
  constructor
  · intro hstate
    obtain ⟨hfree, hothers, hgone, hout, hclosed⟩ := closeCall_closed hvr
    rw [hcloses hstate] at hkeeps
    refine ⟨t, rfl, by rw [hkeeps.call (by decide), hfree],
      fun k hk => by rw [hkeeps.call (by decide), hothers k hk, call_of_pe hpe],
      fun o ho => by rw [hkeeps.out (by decide)]; exact hgone o ho,
      fun o ho => by rw [hkeeps.out (by decide), hout o ho, out_of_za hza], (hclosed.append hkeeps).mono (by decide)⟩
  · intro hstate hfifo
    rw [hdrains hstate hfifo] at hkeeps
    refine ⟨t, rfl, by rw [hkeeps.call (by decide), State.call_setCall_self],
      fun k hk => by rw [hkeeps.call (by decide), State.call_setCall_ne _ _ hk, call_of_pe hpe],
      ((setCall_keepsBut v r _).append hkeeps).mono (by decide)⟩

/-! ## Audio frames (R104 to R106) -/

/-- R104: a frame received at UP leaves what the call takes of it, behind its copy for DOWN. -/
theorem audio_owner {s : State} {h : Hdr} (hc : s.canHear .up) (hp : h.port = .up) (dt : Nat) (payload : List Byte) :
    ∃ t, live dt (fun t => t.audioFrame h payload) s = t ∧
      ((s.arrived dt h).takeAudio payload).keepsBut t [.line, .counters] := by
  refine ⟨_, rfl, ?_⟩
  have hrun := receive_proper (s := s) (h := h) (act := fun t =>
    (t.takeAudio payload).copyDown .downExpress (h.frame 0x02 payload) t.localCount .relayDown) (by rw [hp]; exact hc) dt
  rw [hp] at hrun
  rw [live_running hc.1, State.audioFrame, hrun]
  exact copyDown_keepsBut _ _ _ _ _

theorem fits_of_audioGood {payload : List Byte} (h : audioGood payload = true) : fits payload = true := by
  have hlen : payload.length = 83 := by
    simp only [audioGood, Bool.and_eq_true, decide_eq_true_eq] at h
    exact h.1.1
  exact fits_of_length hlen (by omega)

/-- R106: a frame that finds room joins the FIFO, and as the third of PREFILL starts PLAY. -/
theorem enqueueAll_one {c : Call} (hroom : c.fifo.length < 8) (f : AudioFrame) :
    c.enqueueAll [f] = ({ c with
      fifo := c.fifo ++ [f], state := if c.state = .prefill ∧ 2 ≤ c.fifo.length then .play else c.state,
      underruns := if c.state = .prefill ∧ 2 ≤ c.fifo.length then 0 else c.underruns }, 0) := by
  have hfull : ¬8 ≤ c.fifo.length := by omega
  have hthird : 3 ≤ c.fifo.length + 1 ↔ 2 ≤ c.fifo.length := by omega
  simp only [Call.enqueueAll, Call.enqueue, hfull, decide_false, Bool.false_eq_true, if_false, List.length_append,
    List.length_singleton, hthird]
  by_cases hbegins : c.state = .prefill ∧ 2 ≤ c.fifo.length <;> simp [hbegins]

theorem countN_keepsBut (s : State) (c : Counter) (n : Nat) : s.keepsBut (s.countN c n) [.counters] := by
  intro p hp
  cases p <;> simp [State.samePart] at hp ⊢

/-- R105, R106: one frame that finds room. -/
theorem enqueueFrames_one {c : Call} (hroom : c.fifo.length < 8) (s : State) (r : Fin 8) (n : Byte) (f : AudioFrame) :
    s.enqueueFrames r c n [f] = (s.setCall r (some { c with
      expected := some (n + 1), fifo := c.fifo ++ [f],
      state := if c.state = .prefill ∧ 2 ≤ c.fifo.length then .play else c.state,
      underruns := if c.state = .prefill ∧ 2 ≤ c.fifo.length then 0 else c.underruns })).countN .overrun 0 := by
  have he := enqueueAll_one (c := { c with expected := some (n + 1) }) hroom f
  unfold State.enqueueFrames
  dsimp only at he ⊢
  rw [he]

/-- R105: the expected frame is taken alone. -/
theorem takeSequence_expected {c : Call} {n : Byte} (h : c.expected = none ∨ c.expected = some n) (s : State) (r : Fin 8)
    (f : AudioFrame) : ∃ u, u.pe = s.pe ∧ s.keepsBut u [.counters] ∧ s.takeSequence r c n f = u.enqueueFrames r c n [f] := by
  unfold State.takeSequence
  obtain h | h := h
  · rw [h]
    exact ⟨s, rfl, .refl s _, rfl⟩
  · rw [h]
    exact ⟨s.countN .concealed 0, by simp, countN_keepsBut s _ _, by simp⟩

/-- Settles O36, by the enqueue of one frame. -/
theorem audioTaken : Obligations.AudioTaken := by
  intro s dt h payload r c hc hp hgood hon hr hstate hexp hroom begins
  obtain ⟨t, hrun, hkeeps⟩ := audio_owner hc hp dt payload
  rw [exec_audio (fits_of_audioGood hgood), hrun]
  have hpe : (s.arrived dt h).pe = s.pe := by simp
  have hnow : (s.arrived dt h).now = s.now + dt := by simp
  generalize s.arrived dt h = v at *
  have htake : v.takeAudio payload =
      v.takeSequence r { c with silenceEnd := some (s.now + dt + 2000000) } (byteAt payload 1)
        (.samples (audioSamples payload)) := by
    unfold State.takeAudio
    rw [if_pos hgood, callOn_of_pe hpe, hon]
    dsimp only
    rw [call_of_pe hpe, hr, hnow]
    obtain hs | hs := hstate <;> simp only [hs] <;> rfl
  obtain ⟨u, hupe, hukeeps, hseq⟩ := takeSequence_expected (c := { c with silenceEnd := some (s.now + dt + 2000000) })
    (n := byteAt payload 1) hexp v r (.samples (audioSamples payload))
  have hone := enqueueFrames_one (c := { c with silenceEnd := some (s.now + dt + 2000000) }) hroom u r (byteAt payload 1)
    (.samples (audioSamples payload))
  rw [htake, hseq, hone] at hkeeps
  have hkeeps := ((countN_keepsBut _ .overrun 0).append hkeeps).mono (more := [.line, .counters]) (by decide)
  refine ⟨t, rfl, ?_, fun k hk => ?_, ?_, ?_⟩
  · rw [hkeeps.call (by decide), State.call_setCall_self]
  · rw [hkeeps.call (by decide), State.call_setCall_ne _ _ hk, call_of_pe (hupe.trans hpe)]
  · rw [show t.pe = _ from hkeeps .pe (by simp)]
    simp [State.setCall, hupe, hpe]
  · exact ((hukeeps.append (setCall_keepsBut u r _)).append hkeeps).mono (by decide)

/-! ## The timers of a call (R103, R112) -/

/-- Settles O37, by the close of one call. -/
theorem callTimersEnd : Obligations.CallTimersEnd := by
  intro s dt r c e hh hr hle
  have hpe : (s.elapse dt).pe = s.pe := by simp
  have hnow : (s.elapse dt).now = s.now + dt := by simp
  have hvr : (s.elapse dt).call r = some c := by rw [call_of_pe hpe, hr]
  have hexp : ∀ x, x = some e → (s.elapse dt).expired x = true := fun x hx => by
    simp [hx, State.expired, hle]
  constructor
  · intro hstate he
    refine congrArg Host.Outcome.next ((live_running hh ..).trans ?_)
    unfold State.chimeEnds
    rw [hvr]
    dsimp only
    rw [if_pos ⟨hstate, hexp _ he⟩, hnow]
    rfl
  · intro he
    have hends : (s.elapse dt).silenceEnds r =
        (((s.elapse dt).closeCall r).count .timeout).raise .page 3 (enc8 c.channel) := by
      unfold State.silenceEnds
      rw [hvr]
      exact if_pos (hexp _ he)
    obtain ⟨hfree, hothers, hgone, -, hclosed⟩ := closeCall_closed hvr
    have hraised : ((s.elapse dt).closeCall r).keepsBut
        ((((s.elapse dt).closeCall r).count .timeout).raise .page 3 (enc8 c.channel)) [.line, .counters] :=
      ((count_keepsBut _ .timeout [.counters] (by simp)).append (raise_keepsBut _ .page 3 _)).mono (by decide)
    refine ⟨_, congrArg Host.Outcome.next ((live_running hh ..).trans hends), ?_, fun k hk => ?_, ?_, ?_,
      (hclosed.append hraised).mono (by decide)⟩
    · rw [hraised.call (by decide), hfree]
    · rw [hraised.call (by decide), hothers k hk, call_of_pe hpe]
    · intro o ho
      rw [hraised.out (by decide)]
      exact hgone o ho
    · intro hen hroom
      have hmu : (s.elapse dt).mu = s.mu := by simp
      have hline : (s.elapse dt).line = s.line := by simp
      exact noticed_of_raise (s := s.elapse dt) (cls := .page) (by rw [hmu]; exact hen) (by rw [hline]; exact hroom)
        (by simp) (by simp) (by simp) (by simp) (by simp) 3 [BitVec.ofNat 8 c.channel]

/-! ## Playout (R107, R108, R111) -/

theorem call_tickCall (s : State) (r k : Fin 8) :
    (s.tickCall r).call k = if k = r then (s.call k).map fun c => (c.tick s.now).1 else s.call k := by
  unfold State.tickCall
  split
  · next c hc =>
    have hset : (s.setCall r (some (c.tick s.now).1)).call k =
        if k = r then (s.call k).map fun c => (c.tick s.now).1 else s.call k := by
      rw [call_setCall]
      split
      · next h => rw [h, hc, Option.map_some]
      · rfl
    dsimp only
    split
    · exact hset
    · exact hset
  · next hc =>
    split
    · next h => rw [h, hc, Option.map_none]
    · rfl

theorem tickCall_parts (s : State) (r : Fin 8) :
    (s.tickCall r).now = s.now ∧ (s.tickCall r).pe.nextTick = s.pe.nextTick := by
  unfold State.tickCall
  split
  · dsimp only
    split <;> simp [State.setCall]
  · exact ⟨rfl, rfl⟩

/-- R107: every call takes its tick once. -/
theorem call_foldl_tickCall {rs : List (Fin 8)} (hnodup : rs.Nodup) (s : State) (k : Fin 8) :
    (rs.foldl State.tickCall s).call k = if k ∈ rs then (s.call k).map fun c => (c.tick s.now).1 else s.call k := by
  induction rs generalizing s with
  | nil => simp
  | cons r rs ih =>
    obtain ⟨hr, hrs⟩ := List.nodup_cons.mp hnodup
    rw [List.foldl_cons, ih hrs, (tickCall_parts s r).1, call_tickCall]
    by_cases hk : k = r
    · subst hk
      simp [hr]
    · simp [hk]

/-- The records whose calls a tick closes (R111). -/
def State.drainedRecords (s : State) : List (Fin 8) :=
  allRecords.filter fun r => match s.call r with
    | some c => c.drained
    | none => false

theorem mem_drainedRecords {s : State} {r : Fin 8} {c : Call} (hc : s.call r = some c) :
    r ∈ s.drainedRecords ↔ c.state = .drain ∧ c.fifo = [] := by
  simp [State.drainedRecords, allRecords, hc, Call.drained]

/-- The state in which the frames played have been settled and have ended (R107, R109). -/
def State.settled (s : State) : State := allOutputs.foldl State.clearClipped (allOutputs.foldl State.settleClip s)

theorem settled_parts (s : State) : s.settled.pe = s.pe ∧ s.settled.now = s.now := by
  simp [State.settled]

theorem frameTick_eq (s : State) :
    s.frameTick = (allOutputs.foldl State.handFrame (allRecords.foldl State.tickCall s.settled)).closeCalls s.drainedRecords :=
  rfl

/-- R107, R111: the calls after a tick of the frame clock. -/
theorem call_frameTick (s : State) (r : Fin 8) :
    s.frameTick.call r = if r ∈ s.drainedRecords then none else (s.call r).map fun c => (c.tick s.now).1 := by
  have hhand : ∀ w : State, (allOutputs.foldl State.handFrame w).pe = w.pe := by simp
  obtain ⟨hpe, hnow⟩ := settled_parts s
  rw [frameTick_eq, call_closeCalls, call_of_pe (hhand _), call_foldl_tickCall (rs := allRecords) (List.nodup_finRange 8),
    if_pos (show r ∈ allRecords from List.mem_finRange r), call_of_pe hpe, hnow]

theorem frameTick_nextTick (s : State) : s.frameTick.pe.nextTick = s.pe.nextTick := by
  have hrelease : ∀ (w : State) r, (w.releaseCall r).pe.nextTick = w.pe.nextTick := by
    simp [State.releaseCall, State.setCall]
  have hclose : ∀ (w : State) rs, (w.closeCalls rs).pe.nextTick = w.pe.nextTick := fun w rs => by
    rw [State.closeCalls, ← foldl_part (fun s => s.pe.nextTick) hrelease rs w]
    simp
  have hhand : ∀ w : State, (allOutputs.foldl State.handFrame w).pe = w.pe := by simp
  rw [frameTick_eq, hclose, hhand,
    foldl_part (fun s => s.pe.nextTick) (fun s r => (tickCall_parts s r).2) allRecords, (settled_parts s).1]

theorem frameTick_keepsBut (s : State) : s.keepsBut s.frameTick [.za, .pe, .csv, .counters, .draws] := by
  intro p hp
  cases p <;> simp [State.samePart] at hp ⊢

/-- Settles O38, by the tick of one call and the independence of the records. -/
theorem framesPlayed : Obligations.FramesPlayed := by
  intro s dt hh hdue
  let v : State := { s.elapse dt with pe := { s.pe with nextTick := s.pe.nextTick + 5000 } }
  have hepe : (s.elapse dt).pe = s.pe := by simp
  have hnow : v.now = s.now + dt := by simp [v]
  have hv : ∀ r, v.call r = s.call r := fun _ => rfl
  have hclock : (s.elapse dt).frameClock = v.frameTick := by
    unfold State.frameClock
    rw [hepe, if_pos (by simpa using hdue)]
    rfl
  have hkeeps : (s.elapse dt).keepsBut v [.pe] := by
    intro p hp
    cases p <;> simp [State.samePart, v] at hp ⊢
  have htick : ∀ r c, s.call r = some c → ¬(c.state = .drain ∧ c.fifo = []) →
      v.frameTick.call r = some (c.tick (s.now + dt)).1 := fun r c hr hnot => by
    rw [call_frameTick, if_neg fun hm => hnot ((mem_drainedRecords ((hv r).trans hr)).mp hm), hv, hr, hnow]
    rfl
  refine ⟨v.frameTick, congrArg Host.Outcome.next ((live_running hh ..).trans hclock), frameTick_nextTick v, ?_, ?_, ?_, ?_,
    ?_, ?_, (hkeeps.append (frameTick_keepsBut v)).mono (by decide)⟩
  · intro r c f rest hr hstate hfifo
    rw [htick r c hr (by simp [hstate])]
    simp [Call.tick, hstate, hfifo]
  · intro r c f rest hr hstate hfifo
    rw [htick r c hr (by simp [hfifo])]
    simp [Call.tick, hstate, hfifo]
  · intro r c hr hstate hfifo hrun
    rw [htick r c hr (by simp [hstate])]
    have hlt : ¬20 ≤ c.underruns + 1 := by omega
    simp [Call.tick, hstate, hfifo, hlt]
  · intro r c hr hstate hfifo hrun
    rw [htick r c hr (by simp [hstate])]
    have hle : 20 ≤ c.underruns + 1 := by omega
    simp [Call.tick, hstate, hfifo, hle]
  · intro r c hr hstate hfifo
    rw [call_frameTick, if_pos ((mem_drainedRecords ((hv r).trans hr)).mpr ⟨hstate, hfifo⟩)]
  · intro r hr
    rw [call_frameTick, hv, hr]
    split <;> rfl

end Sys2Proof.Machine

/-! PROOFS. The firing of bells: what a ringing leaves (R73), and the statement on bells on demand (R75). -/

namespace Sys2Proof.Machine

/-! ## Ringing (R73) -/

/-- The claim of a bell rung now (R73). -/
def State.bellClaim (s : State) (pattern duration : Nat) : Claim :=
  ⟨.bell, 5, .tone (s.za.tones.toList.getD pattern .factory), some (s.now + duration * 1000000)⟩

/-- The claims of an output but those of bells. -/
def State.otherThanBells (s : State) (o : Output) : List Claim :=
  (s.out o).claims.filter (fun d => decide (d.source ≠ .bell))

/-- The ringing of a set that is not empty. -/
def State.rungOn (s : State) (set : List Output) (pattern duration : Nat) : State :=
  rechooseAll set (set.foldl (fun u o => u.addClaim (s.bellClaim pattern duration) o) s)

theorem ring_eq (s : State) (t : Target) (quietToo : Bool) (pattern duration : Nat) :
    s.ring t quietToo pattern duration =
      (let u := s.countResolution t (s.zm.resolveBell t quietToo)
       if (s.zm.resolveBell t quietToo).set = [] then u.count .bellEmpty
       else (u.rungOn (s.zm.resolveBell t quietToo).set pattern duration).count .bellsFired) := rfl

theorem rungOn_claims (s : State) (set : List Output) (pattern duration : Nat) (o : Output) :
    (o ∈ set → ((s.rungOn set pattern duration).out o).claims = s.otherThanBells o ++ [s.bellClaim pattern duration]) ∧
    (o ∉ set → (s.rungOn set pattern duration).out o = s.out o) := by
  unfold State.rungOn
  constructor
  · intro ho
    rw [(rechooseAll_out ..).1, foldl_addClaim_claims ho]
    rfl
  · intro ho
    rw [rechooseAll_out_ne ho, foldl_addClaim_out_ne ho]

/-- R73: a ringing puts its claim on each output of its set, in place of an earlier BELL claim, and touches no other. -/
theorem ring_claims (s : State) (t : Target) (quietToo : Bool) (pattern duration : Nat) (o : Output) :
    (o ∈ (s.zm.resolveBell t quietToo).set →
      ((s.ring t quietToo pattern duration).out o).claims = s.otherThanBells o ++ [s.bellClaim pattern duration]) ∧
    (o ∉ (s.zm.resolveBell t quietToo).set → (s.ring t quietToo pattern duration).out o = s.out o) := by
  have hkeeps := countResolution_keepsBut s t (s.zm.resolveBell t quietToo)
  rw [ring_eq]
  generalize (s.zm.resolveBell t quietToo).set = set
  generalize s.countResolution t _ = u at hkeeps ⊢
  have hza : u.za = s.za := hkeeps .za (by simp)
  have hnow : u.now = s.now := hkeeps .now (by simp)
  have hout := out_of_za hza
  have hclaim : u.bellClaim pattern duration = s.bellClaim pattern duration := by
    rw [State.bellClaim, hza, hnow, State.bellClaim]
  have hother : u.otherThanBells o = s.otherThanBells o := by rw [State.otherThanBells, hout, State.otherThanBells]
  dsimp only
  split
  · next hset =>
    rw [hset]
    exact ⟨fun ho => absurd ho List.not_mem_nil, fun _ => hout o⟩
  · obtain ⟨hin, hnot⟩ := rungOn_claims u set pattern duration o
    rw [out_count]
    exact ⟨fun ho => by rw [hin ho, hother, hclaim], fun ho => by rw [hnot ho, hout]⟩

theorem ring_tones (s : State) (t : Target) (quietToo : Bool) (pattern duration : Nat) :
    (s.ring t quietToo pattern duration).za.tones = s.za.tones := by
  have hza : (s.countResolution t (s.zm.resolveBell t quietToo)).za = s.za := countResolution_keepsBut s t _ .za (by simp)
  rw [ring_eq]
  generalize s.countResolution t _ = u at hza
  have hcount : ∀ (w : State) c, (w.count c).za = w.za := by simp
  dsimp only
  split
  · rw [hcount, hza]
  · rw [hcount, State.rungOn, rechooseAll_tones, foldl_addClaim_tones, hza]

theorem ring_keepsBut (s : State) (t : Target) (quietToo : Bool) (pattern duration : Nat) :
    s.keepsBut (s.ring t quietToo pattern duration) [.za, .csv, .counters, .draws] := by
  intro p hp
  cases p <;> simp [State.samePart] at hp ⊢

/-! ## Bells on demand (R75) -/

theorem exec_bellNow {payload : List Byte} (hfit : fits payload = true) (dt : Nat) (h : Hdr) (s : State) :
    exec (.bellNow dt h payload) s =
      .next (live dt (fun t => t.selective 0x05 h payload (fun u => u.takeBellNow payload)) s) := by
  change carried (fits payload) _ = _
  rw [hfit]
  rfl

/-- R75: a good BELL_NOW rings, or in a fire is counted. -/
theorem takeBellNow_good {payload : List Byte} (hlen : payload.length = 18) (hpattern : (byteAt payload 5).toNat ≤ 15)
    (s : State) : ∃ u, s.keepsBut u [.counters] ∧
      (s.fireMute = false → s.takeBellNow payload = u.ring (targetAt payload 0) ((byteAt payload 7).getLsbD 0)
        (byteAt payload 5).toNat (clampDuration (byteAt payload 6).toNat)) ∧
      (s.fireMute = true → s.takeBellNow payload = u.count .suppressedFire) := by
  obtain ⟨u, hu, htake⟩ : ∃ u, s.keepsBut u [.counters] ∧ s.takeBellNow payload =
      u.fireBell false (targetAt payload 0) ((byteAt payload 7).getLsbD 0) (byteAt payload 5).toNat
        (clampDuration (byteAt payload 6).toNat) := by
    unfold State.takeBellNow
    dsimp only
    rw [if_neg (by omega)]
    refine ⟨_, ?_, rfl⟩
    split
    · exact .refl s _
    · exact countN_keepsBut s _ 1
  have hmute : u.fireMute = s.fireMute := fireMute_of_fdc (hu .fdc (by simp))
  refine ⟨u, hu, fun hquiet => ?_, fun hfire => ?_⟩
  · rw [htake, State.fireBell, hmute, hquiet]
    simp
  · rw [htake, State.fireBell, hmute, hfire]
    rfl

/-- Settles O27, by the ringing of one bell. -/
theorem bellNowTaken : Obligations.BellNowTaken := by
  intro s dt h payload hc hp hlen hsel hpattern set d dur c
  obtain ⟨t, hrun, -, hkeeps⟩ := selective_owner hc hp hsel 0x05 payload fun u => u.takeBellNow payload
  rw [exec_bellNow (fits_of_length hlen (by omega)), hrun]
  obtain ⟨u, hu, hrings, hmuted⟩ := takeBellNow_good hlen hpattern (s.arrived dt h)
  have hfdc : (s.arrived dt h).fdc = s.fdc := by simp
  have hzm : u.zm = s.zm := (show u.zm = _ from hu .zm (by simp)).trans (by simp)
  have hza : u.za = s.za := (show u.za = _ from hu .za (by simp)).trans (by simp)
  have hnow : u.now = s.now + dt := (show u.now = _ from hu .now (by simp)).trans (by simp)
  rw [fireMute_of_fdc hfdc] at hrings hmuted
  constructor
  · intro hquiet _
    rw [hrings hquiet] at hkeeps
    have hclaims := ring_claims u (targetAt payload 0) ((byteAt payload 7).getLsbD 0) (byteAt payload 5).toNat
      (clampDuration (byteAt payload 6).toNat)
    have hclaim : u.bellClaim (byteAt payload 5).toNat (clampDuration (byteAt payload 6).toNat) = c := by
      rw [State.bellClaim, hza, hnow]
      rfl
    have hout : ∀ o, t.out o = _ := hkeeps.out (by decide)
    rw [hzm, hclaim] at hclaims
    refine ⟨t, rfl, fun o ho => ?_, fun o ho => ?_, ?_, ((hu.append (ring_keepsBut u _ _ _ _)).append hkeeps).mono (by decide)⟩
    · rw [hout, (hclaims o).1 ho]
      refine ⟨List.mem_append_right _ (List.mem_singleton.mpr rfl), fun c' hc' hbell => ?_⟩
      obtain hold | hnew := List.mem_append.mp hc'
      · exact absurd hbell (by simpa using (List.mem_filter.mp hold).2)
      · exact List.mem_singleton.mp hnew
    · rw [hout, (hclaims o).2 ho, out_of_za hza]
    · rw [show t.za = _ from hkeeps .za (by simp), ring_tones, hza]
  · intro hfire
    rw [hmuted hfire] at hkeeps
    exact ⟨t, rfl, ((hu.append (countN_keepsBut u _ 1)).append hkeeps).mono (by decide)⟩

end Sys2Proof.Machine

/-! PROOFS. The Bell Scheduler's time events (R61, R65 to R71): its own state after each, and which claims they change; the
statement on the local millisecond. -/

namespace Sys2Proof.Machine

/-! ## The processing of entries (R66, R72 to R74) -/

/-- While no drill is armed no time event reaches one (R163). -/
theorem drillReached_of_noneArmed {s : State} (h : s.noneArmed) (day : Word16) (ms : Nat) : s.drillReached day ms = s := by
  unfold State.drillReached
  split
  · next d hd => exact if_neg fun hstart => h d hd hstart.1
  · rfl

theorem noneArmed_of_fdc {s t : State} (h : t.fdc = s.fdc) (hn : s.noneArmed) : t.noneArmed := by
  unfold State.noneArmed
  rw [h]
  exact hn

theorem planIncludes_of_bs {s t : State} (h : t.bs = s.bs) (e : SchedEntry) : t.planIncludes e = s.planIncludes e := by
  rw [State.planIncludes, h, State.planIncludes]

theorem activeBank_of_bs {s t : State} (h : t.bs = s.bs) : t.bs.activeBank = s.bs.activeBank := by rw [h]

theorem refuseDrill_parts (s : State) (id : Word16) (why : DrillRefusal) :
    (s.refuseDrill id why).za = s.za ∧ (s.refuseDrill id why).fdc = s.fdc := by
  simp

/-- R162: in a fire a START changes neither the outputs nor the drill. -/
theorem takeStart_of_fire {s : State} (h : s.fireMute = true) (id : Word16) (program : Fin 4) (day : Word16) (ms : Nat) :
    (s.takeStart id program day ms).za = s.za ∧ (s.takeStart id program day ms).fdc = s.fdc := by
  unfold State.takeStart State.startOutcome
  cases s.fdc.drill with
  | some d =>
    dsimp only
    by_cases hd : d.id = id
    · simp [hd]
    · simp [hd]
  | none => simp [h]

theorem fireDrillEntry_of_fire {s : State} (h : s.fireMute = true) (program : Fin 4) :
    (s.fireDrillEntry program).za = s.za ∧ (s.fireDrillEntry program).fdc = s.fdc := by
  obtain ⟨hza, hfdc⟩ := takeStart_of_fire h 0 program s.tb.day s.tb.ms
  unfold State.fireDrillEntry
  dsimp only
  generalize s.takeStart 0 program s.tb.day s.tb.ms = t at hza hfdc ⊢
  split <;> simp [hza, hfdc]

/-- R72, R74: in the fire mute an entry changes neither the outputs nor the drill. -/
theorem processEntry_of_fire {s : State} (h : s.fireMute = true) (i : Fin 256) :
    (s.processEntry i).za = s.za ∧ (s.processEntry i).fdc = s.fdc := by
  unfold State.processEntry State.fireBell
  dsimp only
  split
  · split
    · exact ⟨rfl, rfl⟩
    · simp
    · exact fireDrillEntry_of_fire h _
  · exact ⟨rfl, rfl⟩

theorem processEntries_of_fire {s : State} (h : s.fireMute = true) (is : List (Fin 256)) :
    (s.processEntries is).za = s.za ∧ (s.processEntries is).fdc = s.fdc := by
  unfold State.processEntries
  induction is generalizing s with
  | nil => exact ⟨rfl, rfl⟩
  | cons i is ih =>
    obtain ⟨hza, hfdc⟩ := processEntry_of_fire h i
    obtain ⟨hza', hfdc'⟩ := ih ((fireMute_of_fdc hfdc).trans h)
    exact ⟨hza'.trans hza, hfdc'.trans hfdc⟩

/-- R66: entries that the plan of day does not include do nothing. -/
theorem processEntries_of_excluded {s : State} {is : List (Fin 256)}
    (h : ∀ i ∈ is, s.planIncludes s.bs.activeBank[i] = false) : s.processEntries is = s := by
  unfold State.processEntries
  induction is with
  | nil => rfl
  | cons i is ih =>
    have hi : s.processEntry i = s := by
      unfold State.processEntry
      dsimp only
      rw [h i List.mem_cons_self]
      rfl
    rw [List.foldl_cons, hi]
    exact ih fun j hj => h j (List.mem_cons_of_mem i hj)

/-- R72: the one entry, a BELL that nothing suppresses, is rung. -/
theorem processEntries_of_ringable {s : State} {i : Fin 256} (h : s.ringable s.bs.activeBank[i]) :
    s.processEntries [i] = s.ring s.bs.activeBank[i].target (s.bs.activeBank[i].flags.getLsbD 0) s.bs.activeBank[i].pattern
      s.bs.activeBank[i].duration := by
  obtain ⟨hkind, hplan, hfire, hdrill⟩ := h
  change s.processEntry i = _
  unfold State.processEntry State.fireBell
  dsimp only
  rw [if_pos hplan, hkind]
  dsimp only
  rw [hfire, hdrill]
  rfl

/-- R73: a ringing is what rung says. -/
theorem ring_rung (s : State) (e : SchedEntry) :
    s.rung (s.ring e.target (e.flags.getLsbD 0) e.pattern e.duration) e s.now := by
  have hclaims := ring_claims s e.target (e.flags.getLsbD 0) e.pattern e.duration
  exact ⟨fun o ho => (hclaims o).1 ho, fun o ho => by rw [(hclaims o).2 ho]⟩

/-- A ringing is read the same from two states with the same outputs and zones. -/
theorem rung_congr {s v t u : State} {e : SchedEntry} {now : Nat} (hzm : v.zm = s.zm) (hza : v.za = s.za) (hout : u.za = t.za)
    (h : v.rung t e now) : s.rung u e now := by
  unfold State.rung at h ⊢
  rw [hzm, hza] at h
  simp only [out_of_za hout, out_of_za hza] at h ⊢
  exact h

/-- The entries of a bank that meet a condition are one alone. -/
theorem entriesWhere_eq_singleton {b : Schedule} {p : Nat → Bool} {i : Fin 256} (hkind : b[i].kind ≠ .empty)
    (hi : p b[i].time = true) (honly : ∀ j : Fin 256, j ≠ i → b[j].kind ≠ .empty → p b[j].time = false) :
    entriesWhere b p = [i] := by
  have hnodup : (entriesWhere b p).Nodup := (List.nodup_finRange 256).filter _
  refine List.perm_singleton.mp ((List.perm_ext_iff_of_nodup hnodup (List.nodup_singleton i)).mpr fun j => ?_)
  rw [mem_entriesWhere, List.mem_singleton]
  constructor
  · rintro ⟨hj, hpj⟩
    by_contra hne
    rw [honly j hne hj] at hpj
    cases hpj
  · rintro rfl
    exact ⟨hkind, hi⟩

/-! ## The cursor (R65) -/

theorem cursorOf_eq_none {b : Schedule} {hwm : Option Nat} :
    cursorOf b hwm = none ↔ ∀ i : Fin 256, b[i].kind ≠ .empty → aboveMark hwm b[i].time = false := by
  rw [cursorOf, List.head?_eq_none_iff, List.eq_nil_iff_forall_not_mem]
  refine forall_congr' fun i => ?_
  rw [mem_entriesWhere, not_and, Bool.not_eq_true]

/-- The head of a sorted list is its least member. -/
theorem head?_eq_some_iff_of_sorted {l : List (Fin 256)} (hl : l.Pairwise (· < ·)) {i : Fin 256} :
    l.head? = some i ↔ i ∈ l ∧ ∀ j < i, j ∉ l := by
  cases l with
  | nil => simp
  | cons k l =>
    obtain ⟨hk, -⟩ := List.pairwise_cons.mp hl
    rw [List.head?_cons, Option.some_inj]
    constructor
    · rintro rfl
      refine ⟨List.mem_cons_self, fun j hj hin => ?_⟩
      obtain rfl | hin := List.mem_cons.mp hin
      · exact absurd hj (lt_irrefl j)
      · exact absurd (hk j hin) (lt_asymm hj)
    · rintro ⟨hin, hleast⟩
      obtain rfl | hin := List.mem_cons.mp hin
      · rfl
      · exact absurd List.mem_cons_self (hleast k (hk i hin))

theorem cursorOf_eq_some {b : Schedule} {hwm : Option Nat} {i : Fin 256} :
    cursorOf b hwm = some i ↔ b[i].kind ≠ .empty ∧ aboveMark hwm b[i].time = true ∧
      ∀ j : Fin 256, j < i → b[j].kind ≠ .empty → aboveMark hwm b[j].time = false := by
  rw [cursorOf, head?_eq_some_iff_of_sorted (entriesWhere_sorted b _), mem_entriesWhere, and_assoc]
  simp only [mem_entriesWhere, not_and, Bool.not_eq_true]

/-! ## The second boundary (R61, R66) -/

/-- The scheduler after a pending activation at a second (R61). -/
def BellScheduler.swappedAt (b : BellScheduler) (sec : Nat) : BellScheduler :=
  let swapped : BellScheduler := { b with active := otherBank b.active, pendingSwap := false }
  if b.pendingSwap = true ∧ sec % 60 = 0 then { swapped with cursor := cursorOf swapped.activeBank swapped.hwm } else b

/-- The scheduler with its mark at a second (R65). -/
def BellScheduler.markedAt (b : BellScheduler) (sec : Nat) : BellScheduler :=
  { b with hwm := some sec, cursor := cursorOf b.activeBank (some sec) }

theorem swapBanks_bs (s : State) (sec : Nat) : (s.swapBanks sec).bs = s.bs.swappedAt sec := by
  unfold State.swapBanks BellScheduler.swappedAt
  split
  · simp [State.setMark]
  · rfl

theorem swapBanks_of_not_pending {s : State} (h : s.bs.pendingSwap = false) (sec : Nat) : s.swapBanks sec = s := by
  unfold State.swapBanks
  exact if_neg fun hp => by simp [h] at hp

theorem setMark_bs (s : State) (sec : Nat) : (s.setMark (some sec)).bs = s.bs.markedAt sec := rfl

/-- The entries due at a second. -/
def State.dueAt (s : State) (sec : Nat) : List (Fin 256) := entriesWhere s.bs.activeBank (fun t => decide (t = sec))

theorem bellSecond_eq (s : State) (sec : Nat) : s.bellSecond sec =
    (let u := s.swapBanks sec
     if aboveMark u.bs.hwm sec then (u.processEntries (u.dueAt sec)).setMark (some sec) else u) := rfl

theorem bellSecond_bs (s : State) (sec : Nat) : (s.bellSecond sec).bs =
    (let b := s.bs.swappedAt sec
     if aboveMark b.hwm sec then b.markedAt sec else b) := by
  have hprocess : ∀ (u : State) is, (u.processEntries is).bs = u.bs := by simp
  rw [bellSecond_eq]
  dsimp only
  rw [swapBanks_bs]
  split
  · rw [setMark_bs, hprocess, swapBanks_bs]
  · exact swapBanks_bs s sec

/-- R72: in the fire mute a second boundary changes neither the outputs nor the drill. -/
theorem bellSecond_of_fire {s : State} (h : s.fireMute = true) (sec : Nat) :
    (s.bellSecond sec).za = s.za ∧ (s.bellSecond sec).fdc = s.fdc := by
  have hza : (s.swapBanks sec).za = s.za := by simp
  have hfdc : (s.swapBanks sec).fdc = s.fdc := by simp
  obtain ⟨hza', hfdc'⟩ := processEntries_of_fire (fireMute_of_fdc hfdc ▸ h) ((s.swapBanks sec).dueAt sec)
  rw [bellSecond_eq]
  dsimp only
  split
  · exact ⟨hza'.trans hza, hfdc'.trans hfdc⟩
  · exact ⟨hza, hfdc⟩

theorem secondBoundary_bs (s : State) (b : Bool) (sec : Nat) : (s.secondBoundary b sec).bs = (s.bellSecond sec).bs := by
  have hreached : ∀ (u : State) d m, (u.drillReached d m).bs = u.bs := by simp
  unfold State.secondBoundary inOrder
  split
  · rw [bellSecond_bs, bellSecond_bs, hreached]
  · exact hreached ..

/-- R66, R163: with no drill armed, and where the bells arm none, a second boundary is that of the Bell Scheduler. -/
theorem secondBoundary_of_noneArmed {s : State} (hn : s.noneArmed) {sec : Nat} (hfdc : (s.bellSecond sec).fdc = s.fdc)
    (b : Bool) : s.secondBoundary b sec = s.bellSecond sec := by
  unfold State.secondBoundary inOrder
  dsimp only
  split
  · rw [drillReached_of_noneArmed hn]
  · exact drillReached_of_noneArmed (noneArmed_of_fdc hfdc hn) _ _

/-! ## The local millisecond (R4, R5, R66, R67) -/

theorem bellMidnight_bs (s : State) (day : Word16) : (s.bellMidnight day).bs =
    { s.bs with plan := some (s.bs.planFor day), hwm := none, cursor := cursorOf s.bs.activeBank none } := by
  unfold State.bellMidnight State.derivePlan
  dsimp only
  split
  · rfl
  · simp [State.setMark]
    rfl

/-- R4, R5: the evaluations and the store behind a tick's bells leave scheduler and outputs. -/
theorem tickEvents_bells (s : State) (b : Bool) (ms adv : Nat) :
    (s.tickEvents b ms adv).bs = (s.tickBells b ms adv).bs ∧ (s.tickEvents b ms adv).za = (s.tickBells b ms adv).za := by
  have hsteps : ∀ u : State, (u.tickSteps ms adv).bs = u.bs ∧ (u.tickSteps ms adv).za = u.za := fun u => by
    unfold State.tickSteps
    split <;> simp
  obtain ⟨hbs, hza⟩ := hsteps (s.tickBells b ms adv)
  rw [tickEvents_eq]
  split
  · exact ⟨hbs, hza⟩
  · exact ⟨hbs, hza⟩

theorem dayMs_eq : Config.dayMs = 86400000 := rfl

/-- R4: a tick within the day at a second boundary is that of the boundary. -/
theorem tickBells_of_boundary {s : State} {ms adv : Nat} (hday : ms + adv < 86400000)
    (hb : ms / 1000 < (ms + adv) / 1000) (b : Bool) : s.tickBells b ms adv = s.secondBoundary b ((ms + adv) / 1000) := by
  have hsec : (ms + adv) / 1000 % 86400 = (ms + adv) / 1000 := Nat.mod_eq_of_lt (by omega)
  unfold State.tickBells
  dsimp only
  rw [if_pos hb, dayMs_eq, if_neg (by omega), hsec]

theorem tickBells_of_no_boundary {s : State} {ms adv : Nat} (hms : ms < 86400000) (hb : ¬ms / 1000 < (ms + adv) / 1000)
    (b : Bool) : s.tickBells b ms adv = s := by
  unfold State.tickBells
  dsimp only
  rw [if_neg hb, dayMs_eq, if_neg (by omega)]

/-- R67: at the midnight roll the plan is derived, and the second 0 follows. -/
theorem tickBells_of_midnight {s : State} {ms adv : Nat} (hms : ms < 86400000) (hday : 86400000 ≤ ms + adv) (hadv : adv ≤ 2)
    (b : Bool) : s.tickBells b ms adv = (s.bellMidnight s.tb.day).secondBoundary b 0 := by
  have hsec : (ms + adv) / 1000 % 86400 = 0 := by omega
  unfold State.tickBells
  dsimp only
  rw [if_pos (by omega), dayMs_eq, if_pos hday, hsec]

/-- R67, R61: the scheduler after midnight. -/
theorem midnight_bs (s : State) (day : Word16) : ((s.bellMidnight day).bellSecond 0).bs =
    (let b : BellScheduler := if s.bs.pendingSwap = true then
        { s.bs with active := otherBank s.bs.active, pendingSwap := false } else s.bs
     { b with plan := some (s.bs.planFor day), hwm := some 0, cursor := cursorOf b.activeBank (some 0) }) := by
  rw [bellSecond_bs, bellMidnight_bs]
  unfold BellScheduler.swappedAt BellScheduler.markedAt
  cases hp : s.bs.pendingSwap <;> simp [aboveMark] <;> rfl

/-- R72: in the fire mute no tick changes a claim, while no drill is armed. -/
theorem tickBells_of_fire {s : State} (hn : s.noneArmed) (h : s.fireMute = true) (b : Bool) (ms adv : Nat) :
    (s.tickBells b ms adv).za = s.za := by
  have hsecond : ∀ (u : State) sec, u.za = s.za → u.fdc = s.fdc → (u.secondBoundary b sec).za = s.za := by
    intro u sec hza hfdc
    obtain ⟨hza', hfdc'⟩ := bellSecond_of_fire (s := u) ((fireMute_of_fdc hfdc).trans h) sec
    rw [secondBoundary_of_noneArmed (noneArmed_of_fdc hfdc hn) hfdc', hza', hza]
  have hza : (s.bellMidnight s.tb.day).za = s.za := by simp
  have hfdc : (s.bellMidnight s.tb.day).fdc = s.fdc := by simp
  unfold State.tickBells
  dsimp only
  split
  · split
    · exact hsecond _ _ hza hfdc
    · exact hsecond _ _ rfl rfl
  · split
    · exact hza
    · rfl

/-- R66: a second that does not lie above the mark, or at which nothing is of the plan, leaves the state but for the mark. -/
theorem bellSecond_of_nothing {s : State} {sec : Nat} (hswap : s.bs.pendingSwap = false)
    (h : aboveMark s.bs.hwm sec = false ∨ ∀ i : Fin 256, s.bs.activeBank[i].kind ≠ .empty → s.bs.activeBank[i].time = sec →
      s.planIncludes s.bs.activeBank[i] = false) :
    (s.bellSecond sec).za = s.za ∧ (s.bellSecond sec).fdc = s.fdc := by
  rw [bellSecond_eq, swapBanks_of_not_pending hswap]
  dsimp only
  split
  · next habove =>
    have hnone := h.resolve_left (by simp [habove])
    rw [processEntries_of_excluded fun i hi => by
      obtain ⟨hkind, htime⟩ := mem_entriesWhere.mp hi
      exact hnone i hkind (of_decide_eq_true htime)]
    exact ⟨rfl, rfl⟩
  · exact ⟨rfl, rfl⟩

/-- R66, R73: the one entry due, a BELL of the plan that nothing suppresses, is rung at its second. -/
theorem bellSecond_rings {s : State} {sec : Nat} {i : Fin 256} (hswap : s.bs.pendingSwap = false)
    (habove : aboveMark s.bs.hwm sec = true) (htime : s.bs.activeBank[i].time = sec) (hring : s.ringable s.bs.activeBank[i])
    (honly : ∀ j : Fin 256, j ≠ i → s.bs.activeBank[j].kind ≠ .empty → s.bs.activeBank[j].time ≠ sec) :
    s.rung (s.bellSecond sec) s.bs.activeBank[i] s.now ∧ (s.bellSecond sec).fdc = s.fdc := by
  have hdue : s.dueAt sec = [i] :=
    entriesWhere_eq_singleton (by rw [hring.1]; simp) (decide_eq_true htime) fun j hj hkind =>
      decide_eq_false (honly j hj hkind)
  have hsecond : s.bellSecond sec = (s.processEntries [i]).setMark (some sec) := by
    rw [bellSecond_eq, swapBanks_of_not_pending hswap]
    dsimp only
    rw [if_pos habove, hdue]
  rw [hsecond, processEntries_of_ringable hring]
  refine ⟨rung_congr (v := s) rfl rfl rfl (ring_rung s s.bs.activeBank[i]), ?_⟩
  generalize s.bs.activeBank[i] = e
  have hmark : ∀ u : State, (u.setMark (some sec)).fdc = u.fdc := fun _ => rfl
  rw [hmark]
  simp

/-- What the tick's bells read stands in the ticked state as before. -/
theorem ticked_parts (s : State) :
    s.ticked.bs = s.bs ∧ s.ticked.za = s.za ∧ s.ticked.zm = s.zm ∧ s.ticked.fdc = s.fdc ∧
      s.ticked.now = s.now + (1000 - s.tb.phase) := by
  simp [State.ticked]

/-- R3: how far a tick moves T in the words of the statements. -/
theorem exec_localTick_bells {s : State} (hh : s.held = false) (hq : s.tb.quality ≠ .invalid) (first : Bool) :
    let slewTick := ¬ s.tb.slewCount < 49
    let adv := if slewTick ∧ 0 < s.tb.slew then 2 else if slewTick ∧ s.tb.slew < 0 then 0 else 1
    s.ticked.tb.day = (if s.tb.ms + adv < 86400000 then s.tb.day else s.tb.day + 1) ∧
    ∃ t, exec (.localTick first) s = .next t ∧ t.bs = (s.ticked.tickBells first s.tb.ms adv).bs ∧
      t.za = (s.ticked.tickBells first s.tb.ms adv).za := by
  intro slewTick adv
  have htb : s.ticked.tb = _ := elapsed_tick_running hh hq
  have hcount : decide (s.ticked.tb.slewCount = 0) = decide slewTick := by
    rw [htb, decide_eq_decide]
    simp only [slewTick]
    split <;> omega
  have hadv : (tickAdvance (decide slewTick) s.tb.slew).1 = adv := by
    rw [tickAdvance_fst]
    simp only [decide_eq_true_eq, adv]
  refine ⟨by rw [← hadv, ← hcount, htb], _, exec_localTick hh first, ?_⟩
  rw [localTickEvent_of_running hq, hcount, hadv]
  exact tickEvents_bells ..

/-- Settles O3, by the second boundary and the midnight roll of the Bell Scheduler. -/
theorem bellSeconds : Obligations.BellSeconds := by
  refine ⟨fun b hwm => ⟨cursorOf_eq_none, fun i => cursorOf_eq_some⟩, ?_⟩
  intro s first hh hq hday slewTick ms sec boundary swapped
  obtain ⟨htday, t, hrun, htbs, htza⟩ := exec_localTick_bells hh hq first
  obtain ⟨hbs, hza, hzm, hfdc, hnow⟩ := ticked_parts s
  have hadv : (if slewTick ∧ 0 < s.tb.slew then 2 else if slewTick ∧ s.tb.slew < 0 then 0 else 1) ≤ 2 := by
    (repeat' split) <;> omega
  change s.ticked.tb.day = if ms < 86400000 then s.tb.day else s.tb.day + 1 at htday
  have hms : ms = s.tb.ms + (if slewTick ∧ 0 < s.tb.slew then 2 else if slewTick ∧ s.tb.slew < 0 then 0 else 1) := rfl
  have hsec : sec = ms / 1000 := rfl
  generalize (if slewTick ∧ 0 < s.tb.slew then 2 else if slewTick ∧ s.tb.slew < 0 then 0 else 1) = adv at *
  clear_value ms sec
  subst hms hsec
  have hnone : s.noneArmed → s.ticked.noneArmed := noneArmed_of_fdc hfdc
  have hclaims : t.za = s.za → ∀ o, (t.out o).claims = (s.out o).claims := fun h o => by rw [out_of_za h]
  refine ⟨t, hrun, fun hb => ?_, fun hb hin => ?_, fun hroll => ?_, fun hn hfire => ?_, fun hn hb hin hswap => ?_⟩
  · rw [htbs, htza, tickBells_of_no_boundary hday hb]
    exact ⟨hbs, hza⟩
  · rw [htbs, tickBells_of_boundary hin hb, secondBoundary_bs, bellSecond_bs, hbs]
    rfl
  · rw [if_neg (by omega)] at htday
    rw [htbs, tickBells_of_midnight hday hroll hadv, secondBoundary_bs, midnight_bs, htday, hbs]
  · refine hclaims ?_
    rw [htza, tickBells_of_fire (hnone hn) ((fireMute_of_fdc hfdc).trans hfire), hza]
  · rw [tickBells_of_boundary hin hb] at htza
    have hswap' : s.ticked.bs.pendingSwap = false := by rw [hbs, hswap]
    refine ⟨fun hnothing => hclaims ?_, fun i habove htime hring honly => ?_⟩
    · obtain ⟨hza', hfdc'⟩ := bellSecond_of_nothing (s := s.ticked) (sec := (s.tb.ms + adv) / 1000) hswap'
        (by simpa only [hbs, planIncludes_of_bs hbs] using hnothing)
      rw [htza, secondBoundary_of_noneArmed (hnone hn) hfdc', hza', hza]
    · obtain ⟨hrung, hfdc'⟩ := bellSecond_rings (s := s.ticked) (sec := (s.tb.ms + adv) / 1000) (i := i) hswap'
        (by rw [hbs]; exact habove) (by rw [hbs]; exact htime)
        (by
          unfold State.ringable State.drillMute at hring ⊢
          rw [planIncludes_of_bs hbs, fireMute_of_fdc hfdc, hbs, hfdc]
          exact hring)
        (by rw [hbs]; exact honly)
      rw [secondBoundary_of_noneArmed (hnone hn) hfdc'] at htza
      rw [hbs, hnow] at hrung
      exact rung_congr hzm hza htza hrung

end Sys2Proof.Machine

/-! PROOFS. The statement on the steps of time (R68 to R71). -/

namespace Sys2Proof.Machine

/-! ## What leaves a counter -/

/-- The counters that neither the acts on claims and winners count, nor a notice, nor the resolution and ringing of a bell,
nor the refusal of a drill. -/
def Counter.apartFromEvents (c : Counter) : Prop :=
  c.apartFromOutputs ∧ c ≠ .unFull ∧ c ≠ .noticesLost ∧
    c ∉ [.targetBad, .mapOverflow, .bellEmpty, .bellsFired, .drillsRefused]

section
variable {c : Counter} (h : c.apartFromEvents)
include h

theorem counter_raise (s : State) (n : NoticeClass) (k : Nat) (a : List Byte) :
    (s.raise n k a).counter c = s.counter c := by
  obtain ⟨-, hfull, hlost, -⟩ := h
  exact counter_raise_of_ne s hfull hlost n k a

theorem counter_fdcClaims (s : State) (set : List Output) (cls pattern : Nat) :
    (s.fdcClaims set cls pattern).counter c = s.counter c :=
  foldl_part (fun s => s.counter c) (fun s o => by
    split
    · exact counter_addClaim h.1 s _ o
    · exact counter_dropClaim h.1 s _ o) allOutputs s

theorem counter_refuseDrill (s : State) (id : Word16) (why : DrillRefusal) :
    (s.refuseDrill id why).counter c = s.counter c := by
  have ⟨_, _, _, hnot⟩ := h
  have hcount : (s.count .drillsRefused).counter c = s.counter c :=
    counter_count_of_ne s (by rintro rfl; simp at hnot)
  unfold State.refuseDrill
  dsimp only
  split
  · exact (counter_raise h _ _ _ _).trans hcount
  · exact (counter_raise h _ _ _ _).trans hcount

theorem counter_ring (s : State) (t : Target) (quietToo : Bool) (pattern duration : Nat) :
    (s.ring t quietToo pattern duration).counter c = s.counter c := by
  have ⟨_, _, _, hnot⟩ := h
  have hres : ∀ r, (s.countResolution t r).counter c = s.counter c := fun r => by
    unfold State.countResolution
    rw [counter_countN_of_ne _ _ (by rintro rfl; simp at hnot)]
    split
    · exact counter_count_of_ne s (by rintro rfl; simp at hnot)
    · rfl
  rw [ring_eq]
  dsimp only
  split
  · rw [counter_count_of_ne _ (by rintro rfl; simp at hnot), hres]
  · rw [counter_count_of_ne _ (by rintro rfl; simp at hnot), State.rungOn, counter_rechooseAll h.1,
      counter_foldl_addClaim h.1, hres]

theorem counter_derivePlan (s : State) (day : Word16) : (s.derivePlan day).counter c = s.counter c := by
  unfold State.derivePlan
  dsimp only
  split
  · rfl
  · exact counter_raise h _ _ _ _

theorem counter_enterMode (s : State) (k : LineNo) (m : ClockMode) (d : Nat) :
    (s.enterMode k m d).counter c = s.counter c := by
  have hset : ∀ (u : State) v, (u.setClockLine k v).counter c = u.counter c := fun _ _ => rfl
  have hraise := counter_raise h
  unfold State.enterMode
  dsimp only
  rw [hset]
  (repeat' split) <;> simp only [hraise]

theorem counter_startPulse (s : State) (k : LineNo) : (s.startPulse k).counter c = s.counter c := by
  obtain ⟨⟨-, -, hskip, hdisc⟩, -⟩ := h
  exact counter_settleScan hskip hdisc _

theorem counter_pulseOrWait (s : State) (k : LineNo) : (s.pulseOrWait k).counter c = s.counter c := by
  have hstart := counter_startPulse h s k
  unfold State.pulseOrWait
  dsimp only
  split
  · split
    · rfl
    · exact hstart
  · split
    · exact hstart
    · split
      · exact hstart
      · rfl

theorem counter_evaluate (s : State) (k : LineNo) : (s.evaluate k).counter c = s.counter c := by
  have hset : ∀ (u : State) v, (u.setClockLine k v).counter c = u.counter c := fun _ _ => rfl
  have hmode := counter_enterMode h s k
  unfold State.evaluate
  dsimp only
  split
  · rfl
  · split
    · rw [hset, hmode]
    · split
      · rw [counter_pulseOrWait h, hmode]
      · rw [hset, hmode]

theorem counter_evaluateAll (s : State) : s.evaluateAll.counter c = s.counter c := by
  have hfold : s.evaluateAll = allLines.foldl State.stepAt s := rfl
  rw [hfold]
  refine foldl_part (fun s => s.counter c) (fun s l => ?_) allLines s
  unfold State.stepAt
  split
  · rfl
  · exact counter_evaluate h s l

theorem counter_tickSteps (s : State) (ms adv : Nat) : (s.tickSteps ms adv).counter c = s.counter c := by
  have hfold : ∀ k, s.stepBoundary k = allLines.foldl (State.boundaryAt k) s := fun _ => rfl
  unfold State.tickSteps
  split
  · rw [hfold]
    refine foldl_part (fun s => s.counter c) (fun s l => ?_) allLines s
    unfold State.boundaryAt
    split
    · rfl
    · split
      · exact counter_evaluate h s l
      · rfl
    · exact counter_evaluate h s l
  · rfl

end

/-! ## What leaves the counter MISSED -/

theorem apartFromEvents_missed : Counter.apartFromEvents .missed := by
  unfold Counter.apartFromEvents Counter.apartFromOutputs
  decide

theorem missed_raise (s : State) (c : NoticeClass) (k : Nat) (a : List Byte) :
    (s.raise c k a).counter .missed = s.counter .missed :=
  counter_raise apartFromEvents_missed s c k a

theorem missed_count {c : Counter} (h : Counter.missed ≠ c) (s : State) :
    (s.count c).counter .missed = s.counter .missed :=
  counter_count_of_ne s h

theorem missed_startDrill (s : State) (d : Drill) : (s.startDrill d).counter .missed = s.counter .missed := by
  unfold State.startDrill State.enterEvacuate
  dsimp only
  split
  · change ((State.fdcClaims _ _ _ _).counter .missed) = _
    rw [counter_fdcClaims apartFromEvents_missed]
    exact (missed_raise _ _ _ _).trans (missed_count (by decide) s)
  · rw [counter_fdcClaims apartFromEvents_missed]
    exact (missed_raise _ _ _ _).trans (missed_count (by decide) s)

theorem missed_drillReached (s : State) (day : Word16) (ms : Nat) :
    (s.drillReached day ms).counter .missed = s.counter .missed := by
  unfold State.drillReached
  split
  · split
    · rw [counter_rechooseAll apartFromEvents_missed.1, missed_startDrill]
    · rfl
  · rfl

theorem missed_takeStart (s : State) (id : Word16) (program : Fin 4) (day : Word16) (ms : Nat) :
    (s.takeStart id program day ms).counter .missed = s.counter .missed := by
  unfold State.takeStart
  dsimp only
  split
  · rfl
  · exact counter_refuseDrill apartFromEvents_missed s id _
  · rw [counter_rechooseAll apartFromEvents_missed.1, missed_startDrill]
  · exact missed_raise _ _ _ _

theorem missed_processEntry (s : State) (i : Fin 256) : (s.processEntry i).counter .missed = s.counter .missed := by
  unfold State.processEntry State.fireBell State.fireDrillEntry
  dsimp only
  split
  · split
    · rfl
    · split
      · exact missed_count (by decide) s
      · split
        · exact missed_count (by decide) s
        · exact counter_ring apartFromEvents_missed s _ _ _ _
    · have := missed_takeStart s 0 ⟨s.bs.activeBank[i].pattern % 4, Nat.mod_lt _ (by decide)⟩ s.tb.day s.tb.ms
      split
      · exact this
      · exact (missed_count (by decide) _).trans this
      · exact (missed_count (by decide) _).trans this
      · exact this
  · rfl

theorem missed_processEntries (s : State) (is : List (Fin 256)) :
    (s.processEntries is).counter .missed = s.counter .missed :=
  foldl_part (fun s => s.counter .missed) missed_processEntry is s

theorem missed_derivePlan (s : State) (day : Word16) : (s.derivePlan day).counter .missed = s.counter .missed :=
  counter_derivePlan apartFromEvents_missed s day

theorem missed_setMark (s : State) (hwm : Option Nat) : (s.setMark hwm).counter .missed = s.counter .missed := rfl

/-! ## The step event at the Bell Scheduler (R68 to R71) -/

theorem derivePlan_parts (s : State) (day : Word16) :
    (s.derivePlan day).bs = { s.bs with plan := some (s.bs.planFor day) } ∧ (s.derivePlan day).za = s.za ∧
      (s.derivePlan day).zm = s.zm ∧ (s.derivePlan day).fdc = s.fdc ∧ (s.derivePlan day).mu = s.mu ∧
      (s.derivePlan day).now = s.now := by
  refine ⟨?_, by simp, by simp, by simp, by simp, by simp⟩
  unfold State.derivePlan
  dsimp only
  split
  · rfl
  · simp

/-- The scheduler after a step event (R68 to R71). -/
def BellScheduler.afterStep (b : BellScheduler) (e : StepEvent) : BellScheduler :=
  let sn := e.newMs / 1000
  if e.dayChanged then { b.markedAt sn with plan := some (b.planFor e.newDay) }
  else if e.forward then (if e.prior = .backup ∨ aboveMark b.hwm sn = true then b.markedAt sn else b)
  else b

theorem bellOtherDay_bs (s : State) (e : StepEvent) (sn : Nat) : (s.bellOtherDay e sn).bs =
    { s.bs.markedAt sn with plan := some (s.bs.planFor e.newDay) } := by
  have hprocess : ∀ (u : State) is, (u.processEntries is).bs = u.bs := by simp
  obtain ⟨hbs, -⟩ := derivePlan_parts s e.newDay
  unfold State.bellOtherDay
  dsimp only
  rw [setMark_bs]
  split
  · rw [hprocess, hbs]
    rfl
  · rw [hbs]
    rfl

theorem bellForward_bs (s : State) (so sn : Nat) :
    (s.bellForward so sn).bs = if aboveMark s.bs.hwm sn = true then s.bs.markedAt sn else s.bs := by
  have hprocess : ∀ (u : State) is, (u.processEntries is).bs = u.bs := by simp
  have hraise : ∀ (u : State) k a, (u.raise .bell k a).bs = u.bs := by simp
  have hcount : ∀ (u : State) c n, (u.countN c n).bs = u.bs := by simp
  unfold State.bellForward
  dsimp only
  split
  · split
    · rw [setMark_bs, hprocess, hcount]
    · rw [hraise, setMark_bs, hprocess, hcount]
  · rfl

theorem bellStep_bs (s : State) (e : StepEvent) : (s.bellStep e).bs = s.bs.afterStep e := by
  obtain ⟨hbs, -⟩ := derivePlan_parts s e.newDay
  unfold State.bellStep BellScheduler.afterStep State.bellFromBackup
  dsimp only
  by_cases hprior : e.prior = .backup
  · simp only [hprior, if_true, true_or]
    split
    · rw [setMark_bs, hbs]
      rfl
    · split <;> rfl
  · simp only [hprior, if_false, false_or]
    split
    · exact bellOtherDay_bs s e _
    · split
      · exact bellForward_bs s _ _
      · rfl

/-- The entries of the plan that a forward step passes too late (R68). -/
def State.passedLate (s : State) (sn : Nat) : List (Fin 256) :=
  (entriesWhere s.bs.activeBank (fun t => aboveMark s.bs.hwm t && decide (t + s.mu.node.lateWindow < sn))).filter
    (fun i => s.planIncludes s.bs.activeBank[i])

/-- The entries that a forward step processes (R68). -/
def State.lateWithin (s : State) (sn : Nat) : List (Fin 256) :=
  entriesWhere s.bs.activeBank
    (fun t => aboveMark s.bs.hwm t && decide (sn ≤ t + s.mu.node.lateWindow) && decide (t ≤ sn))

theorem bellForward_of_above {s : State} {sn : Nat} (h : aboveMark s.bs.hwm sn = true) (so : Nat) :
    s.bellForward so sn =
      (let u := ((s.countN .missed (s.passedLate sn).length).processEntries (s.lateWithin sn)).setMark (some sn)
       if s.passedLate sn = [] then u
       else u.raise .bell 3 (enc16 (s.passedLate sn).length ++ enc24 so ++ enc24 sn)) := by
  unfold State.bellForward
  exact if_pos h

theorem missed_bellForward {s : State} {sn : Nat} (h : aboveMark s.bs.hwm sn = true) (so : Nat) :
    (s.bellForward so sn).counter .missed = min 65535 (s.counter .missed + (s.passedLate sn).length) := by
  rw [bellForward_of_above h]
  dsimp only
  split
  · rw [missed_setMark, missed_processEntries, State.counter_countN_self]
  · rw [missed_raise, missed_setMark, missed_processEntries, State.counter_countN_self]

/-- What a step event or a start event leaves where it rings nothing. -/
def State.bellsSilent (s t : State) : Prop :=
  t.za = s.za ∧ t.fdc = s.fdc ∧ t.counter .missed = s.counter .missed

theorem derivedAndMarked_silent (s : State) (day : Word16) (hwm : Option Nat) :
    s.bellsSilent ((s.derivePlan day).setMark hwm) := by
  obtain ⟨-, hza, -, hfdc, -⟩ := derivePlan_parts s day
  exact ⟨hza, hfdc, missed_derivePlan s day⟩

/-- R68 to R71: the steps that ring nothing. -/
theorem bellStep_silent {s : State} {e : StepEvent}
    (h : e.prior = .backup ∨ e.forward = false ∨ (e.dayChanged = false ∧ aboveMark s.bs.hwm (e.newMs / 1000) = false)) :
    s.bellsSilent (s.bellStep e) := by
  have hrefl : s.bellsSilent s := ⟨rfl, rfl, rfl⟩
  have hderived := derivedAndMarked_silent s e.newDay (some (e.newMs / 1000))
  unfold State.bellStep State.bellFromBackup State.bellOtherDay State.bellForward
  dsimp only
  split
  · split
    · exact hderived
    · split <;> exact hrefl
  · next hprior =>
    have h := h.resolve_left hprior
    split
    · next hday =>
      obtain hback | ⟨hsame, -⟩ := h
      · rw [hback]
        exact hderived
      · simp [hsame] at hday
    · split
      · next hforward =>
        obtain hback | ⟨-, hmark⟩ := h
        · simp [hback] at hforward
        · rw [hmark]
          exact hrefl
      · exact hrefl

theorem ringable_congr {s t : State} {e : SchedEntry} (hplan : t.bs.plan = s.bs.plan) (hfdc : t.fdc = s.fdc)
    (h : s.ringable e) : t.ringable e := by
  unfold State.ringable State.planIncludes State.fireMute State.drillMute at h ⊢
  rw [hplan, hfdc]
  exact h

/-- A bell rung alone in a state that reads as s. -/
theorem processEntries_rung {s u : State} {i : Fin 256} (hzm : u.zm = s.zm) (hza : u.za = s.za)
    (hbank : u.bs.activeBank = s.bs.activeBank) (h : u.ringable s.bs.activeBank[i]) :
    s.rung (u.processEntries [i]) s.bs.activeBank[i] u.now ∧ (u.processEntries [i]).fdc = u.fdc := by
  rw [← hbank] at h ⊢
  rw [processEntries_of_ringable h]
  refine ⟨rung_congr hzm hza rfl (ring_rung u _), ?_⟩
  generalize u.bs.activeBank[i] = e
  simp

/-- R68: a forward step within the day rings the one entry late within the window. -/
theorem bellForward_rings {s : State} {sn : Nat} {i : Fin 256}
    (habove : aboveMark s.bs.hwm s.bs.activeBank[i].time = true)
    (hlate : sn ≤ s.bs.activeBank[i].time + s.mu.node.lateWindow) (hpast : s.bs.activeBank[i].time ≤ sn)
    (hring : s.ringable s.bs.activeBank[i])
    (honly : ∀ j : Fin 256, j ≠ i → s.bs.activeBank[j].kind ≠ .empty → aboveMark s.bs.hwm s.bs.activeBank[j].time = true →
      ¬(sn ≤ s.bs.activeBank[j].time + s.mu.node.lateWindow ∧ s.bs.activeBank[j].time ≤ sn)) (so : Nat) :
    s.rung (s.bellForward so sn) s.bs.activeBank[i] s.now ∧ (s.bellForward so sn).fdc = s.fdc := by
  have hmark : aboveMark s.bs.hwm sn = true := by
    cases hm : s.bs.hwm with
    | none => rfl
    | some m =>
      rw [hm] at habove
      exact decide_eq_true (Nat.lt_of_lt_of_le (of_decide_eq_true habove) hpast)
  have hlist : s.lateWithin sn = [i] :=
    entriesWhere_eq_singleton (by rw [hring.1]; simp) (by simpa using ⟨⟨habove, hlate⟩, hpast⟩) fun j hj hkind => by
      cases hj' : aboveMark s.bs.hwm s.bs.activeBank[j].time with
      | false => rfl
      | true => simpa using honly j hj hkind hj'
  obtain ⟨hrung, hfdc⟩ := processEntries_rung (s := s) (u := s.countN .missed (s.passedLate sn).length) (i := i)
    (by simp) (by simp) (by simp) (ringable_congr (by simp) (by simp) hring)
  rw [bellForward_of_above hmark, hlist]
  have hnow : (s.countN .missed (s.passedLate sn).length).now = s.now := by simp
  rw [hnow] at hrung
  generalize (s.countN .missed (s.passedLate sn).length).processEntries [i] = w at hrung hfdc ⊢
  have hwfdc : w.fdc = s.fdc := hfdc.trans (by simp)
  have hraise : ∀ k a, ((w.setMark (some sn)).raise .bell k a).za = w.za ∧
      ((w.setMark (some sn)).raise .bell k a).fdc = w.fdc := fun k a =>
    ⟨(by simp : _ = (w.setMark (some sn)).za), (by simp : _ = (w.setMark (some sn)).fdc)⟩
  dsimp only
  split
  · exact ⟨rung_congr (v := s) rfl rfl rfl hrung, hwfdc⟩
  · exact ⟨rung_congr (v := s) rfl rfl (hraise _ _).1 hrung, (hraise _ _).2.trans hwfdc⟩

/-- R70: a forward step to another day rings the one entry of the new plan late within the window. -/
theorem bellOtherDay_rings {s : State} {e : StepEvent} {sn : Nat} {i : Fin 256} (hforward : e.forward = true)
    (hlate : sn ≤ s.bs.activeBank[i].time + s.mu.node.lateWindow) (hpast : s.bs.activeBank[i].time ≤ sn)
    (hring : (s.derivePlan e.newDay).ringable s.bs.activeBank[i])
    (honly : ∀ j : Fin 256, j ≠ i → s.bs.activeBank[j].kind ≠ .empty →
      ¬(sn ≤ s.bs.activeBank[j].time + s.mu.node.lateWindow ∧ s.bs.activeBank[j].time ≤ sn)) :
    s.rung (s.bellOtherDay e sn) s.bs.activeBank[i] s.now ∧ (s.bellOtherDay e sn).fdc = s.fdc := by
  obtain ⟨hbs, hza, hzm, hfdc, hmu, hnow⟩ := derivePlan_parts s e.newDay
  have hbank : (s.derivePlan e.newDay).bs.activeBank = s.bs.activeBank := by rw [hbs]; rfl
  have hlist : entriesWhere (s.derivePlan e.newDay).bs.activeBank
      (fun t => decide (sn ≤ t + (s.derivePlan e.newDay).mu.node.lateWindow) && decide (t ≤ sn)) = [i] := by
    rw [hbank, hmu]
    exact entriesWhere_eq_singleton (by rw [hring.1]; simp) (by simpa using ⟨hlate, hpast⟩) fun j hj hkind => by
      simpa using honly j hj hkind
  obtain ⟨hrung, hfdc'⟩ := processEntries_rung (i := i) hzm hza hbank hring
  unfold State.bellOtherDay
  dsimp only
  rw [if_pos hforward, hlist]
  exact ⟨rung_congr (v := s) rfl rfl rfl (hnow ▸ hrung), hfdc'.trans hfdc⟩

/-! ## A step of time (R6, R12) -/

/-- The step event that a step of time issues (R6). -/
def State.stepEventOf (s : State) (est : Nat × Word16) (lag : Nat) : StepEvent :=
  ⟨s.tb.day, s.tb.ms, (carryForward est lag).2, (carryForward est lag).1 / 1000,
    stepForward s.tb.day s.tb.ms (carryForward est lag).2 ((carryForward est lag).1 / 1000), s.tb.quality⟩

/-- What the step event finds of the blocks that take it stands as before the step. -/
structure StepReads (s u : State) (now : Nat) : Prop where
  bs : u.bs = s.bs
  za : u.za = s.za
  zm : u.zm = s.zm
  fdc : u.fdc = s.fdc
  mu : u.mu = s.mu
  now_eq : u.now = now
  counter : ∀ c : Counter, c.apartFromEvents → c ≠ .timeSteps → u.counter c = s.counter c

theorem stepped_reads {s : State} {lag : Nat} (hlag : s.tb.phase + lag < 1000) (f : TimeFields) (est : Nat × Word16)
    (b : Bool) : StepReads s (s.stepped f est lag b) (s.now + lag) := by
  have hpass := passLag_within hlag b
  unfold State.stepped
  rw [hpass]
  refine ⟨by simp, by simp, by simp, by simp, by simp, by simp, fun c hc hsteps => ?_⟩
  have hquality : ∀ (u : State) q, (u.setQuality q).counter c = u.counter c := fun u q => by
    unfold State.setQuality
    split
    · rfl
    · exact counter_raise hc _ _ _ _
  change ((State.setQuality _ _).count .timeSteps).counter c = _
  rw [counter_count_of_ne _ hsteps, hquality]
  exact counter_elapse_of_ne s hc.1.2.2.1 lag

/-- The events of a step that is applied within the millisecond, the evaluations behind those of the other blocks. -/
theorem takeStep_events {s : State} {lag : Nat} (hlag : s.tb.phase + lag < 1000) (f : TimeFields) (est : Nat × Word16)
    (x : Int) (b : Bool) : ∃ (u w : State) (args : List Byte), StepReads s u (s.now + lag) ∧
      u.tb.quality = .synced ∧ u.tb.day = (carryForward est lag).2 ∧ u.tb.ms = (carryForward est lag).1 / 1000 ∧
      (s.tb.quality = .invalid → w = u.bellStart (carryForward est lag).2 ((carryForward est lag).1 / 1000)) ∧
      (s.tb.quality ≠ .invalid → w = inOrder b
        (fun u => u.drillReached (s.stepEventOf est lag).newDay (s.stepEventOf est lag).newMs)
        (fun u => u.bellStep (s.stepEventOf est lag)) u) ∧
      s.takeStep f est x lag b = w.evaluateAll.raise .time 2 args := by
  have hpass := passLag_within hlag b
  have hreads := stepped_reads hlag f est b
  have hquality : (s.stepped f est lag b).tb.quality = .synced := by rw [stepped_tb]
  have hday : (s.stepped f est lag b).tb.day = (carryForward est lag).2 := by rw [stepped_tb]
  have hms : (s.stepped f est lag b).tb.ms = (carryForward est lag).1 / 1000 := by rw [stepped_tb]
  have hq : (s.passLag lag b).tb.quality = s.tb.quality := by rw [hpass]; simp
  have hpday : (s.passLag lag b).tb.day = s.tb.day := by rw [hpass]; simp
  have hpms : (s.passLag lag b).tb.ms = s.tb.ms := by rw [hpass]; simp
  obtain ⟨args, he⟩ := takeStep_eq s f est x lag b
  rw [hq, hpday, hpms] at he
  generalize s.stepped f est lag b = u at *
  by_cases hinvalid : s.tb.quality = .invalid
  · rw [if_pos hinvalid, State.startEvent, hday, hms] at he
    exact ⟨u, _, args, hreads, hquality, hday, hms, fun _ => rfl, fun hn => absurd hinvalid hn, he⟩
  · rw [if_neg hinvalid, State.stepEvent] at he
    exact ⟨u, _, args, hreads, hquality, hday, hms, fun hi => absurd hi hinvalid, fun _ => rfl, he⟩

/-- R6, R163: what the step event leaves at the Bell Scheduler, in either order of the two blocks. -/
theorem inOrder_bells (u : State) (e : StepEvent) (b : Bool) :
    (inOrder b (fun u => u.drillReached e.newDay e.newMs) (fun u => u.bellStep e) u).bs = u.bs.afterStep e ∧
    ∀ n, (∀ v : State, v.bs = u.bs → v.mu = u.mu → (v.bellStep e).counter .missed = min 65535 (v.counter .missed + n)) →
      (inOrder b (fun u => u.drillReached e.newDay e.newMs) (fun u => u.bellStep e) u).counter .missed =
        min 65535 (u.counter .missed + n) := by
  have hbs : ∀ v : State, (v.drillReached e.newDay e.newMs).bs = v.bs := fun v => by simp
  have hmu : ∀ v : State, (v.drillReached e.newDay e.newMs).mu = v.mu := fun v => by simp
  unfold inOrder
  dsimp only
  constructor
  · split
    · rw [bellStep_bs, hbs]
    · rw [hbs, bellStep_bs]
  · intro n hstep
    split
    · rw [hstep _ (hbs u) (hmu u), missed_drillReached]
    · rw [missed_drillReached, hstep u rfl rfl]

/-- R163: with no drill armed, and where the bells arm none, the step event is that of the Bell Scheduler. -/
theorem inOrder_of_noneArmed {u : State} (hn : u.noneArmed) {e : StepEvent} (hfdc : (u.bellStep e).fdc = u.fdc) (b : Bool) :
    inOrder b (fun u => u.drillReached e.newDay e.newMs) (fun u => u.bellStep e) u = u.bellStep e := by
  unfold inOrder
  dsimp only
  split
  · rw [drillReached_of_noneArmed hn]
  · exact drillReached_of_noneArmed (noneArmed_of_fdc hfdc hn) _ _

theorem bellStart_bs (s : State) (day : Word16) (ms : Nat) : (s.bellStart day ms).bs =
    { s.bs.markedAt (ms / 1000) with plan := some (s.bs.planFor day) } := by
  obtain ⟨hbs, -⟩ := derivePlan_parts s day
  unfold State.bellStart
  rw [setMark_bs, hbs]
  rfl

/-- R6: within the day a step is forward exactly to a later time. -/
theorem stepForward_same_day (day : Word16) (oldMs newMs : Nat) :
    stepForward day oldMs day newMs = decide (oldMs < newMs) := by
  simp [stepForward]

theorem stepForward_of_later {old new : Word16} (h : 0 < (new - old).toInt) (oldMs newMs : Nat) :
    stepForward old oldMs new newMs = true := by
  unfold stepForward
  dsimp only
  rw [decide_eq_true h, Bool.true_or]

theorem stepForward_of_earlier {old new : Word16} (h : (new - old).toInt < 0) (oldMs newMs : Nat) :
    stepForward old oldMs new newMs = false := by
  have h0 : ¬0 < (new - old).toInt := by omega
  have h1 : ¬(new - old).toInt = 0 := by omega
  unfold stepForward
  dsimp only
  rw [decide_eq_false h0, decide_eq_false h1]
  rfl

/-- What the line's copy leaves behind a step. -/
theorem copyDown_bells (y : State) (f : Frame) (l : Word32) (o : Origin) :
    (y.copyDown .downExpress f l o).bs = y.bs ∧ (y.copyDown .downExpress f l o).za = y.za ∧
      (y.copyDown .downExpress f l o).counter .missed = y.counter .missed :=
  ⟨by simp, by simp, counter_copyDown_of_ne y (by decide) f l o⟩

/-- R68: the entries passed too late are those of the statement. -/
theorem passedLate_length (s : State) (sn : Nat) : (s.passedLate sn).length =
    ((List.finRange 256).filter (fun i => decide (s.bs.activeBank[i].kind ≠ .empty) &&
      aboveMark s.bs.hwm s.bs.activeBank[i].time && decide (s.bs.activeBank[i].time + s.mu.node.lateWindow < sn) &&
      s.planIncludes s.bs.activeBank[i])).length := by
  unfold State.passedLate entriesWhere
  rw [List.filter_filter]
  congr 2
  funext i
  rw [Bool.and_comm, Bool.and_assoc, Bool.and_assoc, Bool.and_assoc, Bool.and_assoc]

/-- A step of time at the Bell Scheduler: what it finds, in the words of R68 to R71, and what the node holds behind it. -/
structure StepTaken (s t u : State) (e : StepEvent) (now : Nat) : Prop extends StepReads s u now where
  start : e.prior = .invalid → t.bs = (u.bellStart e.newDay e.newMs).bs ∧ t.za = (u.bellStart e.newDay e.newMs).za ∧
    t.counter .missed = (u.bellStart e.newDay e.newMs).counter .missed
  steps : e.prior ≠ .invalid → ∃ b, ∀ w,
    w = inOrder b (fun u => u.drillReached e.newDay e.newMs) (fun u => u.bellStep e) u →
    t.bs = w.bs ∧ t.za = w.za ∧ t.counter .missed = w.counter .missed

namespace StepTaken

variable {s t u : State} {e : StepEvent} {now : Nat}

theorem missed (h : StepTaken s t u e now) : u.counter .missed = s.counter .missed :=
  h.counter .missed apartFromEvents_missed (by decide)

/-- R68 to R71: the scheduler after the step. -/
theorem bs_eq (h : StepTaken s t u e now) : t.bs =
    if e.prior = .invalid then { s.bs.markedAt (e.newMs / 1000) with plan := some (s.bs.planFor e.newDay) }
    else s.bs.afterStep e := by
  split
  · next hq => rw [(h.start hq).1, bellStart_bs, h.bs]
  · next hq =>
    obtain ⟨b, hw⟩ := h.steps hq
    rw [(hw _ rfl).1, (inOrder_bells u e b).1, h.bs]

/-- R68: the late entries of a forward step are counted. -/
theorem missed_eq (h : StepTaken s t u e now) (hq : e.prior ≠ .invalid) (hback : e.prior ≠ .backup)
    (hday : e.dayChanged = false) (hforward : e.forward = true) (habove : aboveMark s.bs.hwm (e.newMs / 1000) = true) :
    t.counter .missed = min 65535 (s.counter .missed + (s.passedLate (e.newMs / 1000)).length) := by
  obtain ⟨b, hw⟩ := h.steps hq
  have hpassed : ∀ v : State, v.bs = s.bs → v.mu = s.mu → v.passedLate (e.newMs / 1000) = s.passedLate (e.newMs / 1000) :=
    fun v hbs hmu => by
      have hincludes : v.planIncludes = s.planIncludes := funext fun x => planIncludes_of_bs hbs x
      rw [State.passedLate, hbs, hmu, hincludes, State.passedLate]
  rw [(hw _ rfl).2.2, (inOrder_bells u e b).2 _ fun v hbs hmu => ?_, h.missed]
  have hvbs := hbs.trans h.bs
  have hstep : v.bellStep e = v.bellForward (e.oldMs / 1000) (e.newMs / 1000) := by
    unfold State.bellStep
    dsimp only
    rw [if_neg hback, hday, hforward]
    rfl
  rw [hstep, missed_bellForward (by rw [hvbs]; exact habove), hpassed v hvbs (hmu.trans h.mu)]

/-- R68 to R71: a step that rings nothing. -/
theorem silent (h : StepTaken s t u e now) (hn : s.noneArmed)
    (hsilent : e.prior = .invalid ∨ e.prior = .backup ∨ e.forward = false ∨
      (e.dayChanged = false ∧ aboveMark s.bs.hwm (e.newMs / 1000) = false)) :
    t.counter .missed = s.counter .missed ∧ ∀ o, (t.out o).claims = (s.out o).claims := by
  obtain ⟨hza, hmissed⟩ : t.za = u.za ∧ t.counter .missed = u.counter .missed := by
    by_cases hq : e.prior = .invalid
    · obtain ⟨hza, -, hmissed⟩ := derivedAndMarked_silent u e.newDay (some (e.newMs / 1000))
      obtain ⟨-, htza, htmissed⟩ := h.start hq
      exact ⟨htza.trans hza, htmissed.trans hmissed⟩
    · obtain ⟨b, hw⟩ := h.steps hq
      obtain ⟨hza, hfdc, hmissed⟩ := bellStep_silent (s := u) (e := e) (by rw [h.bs]; exact hsilent.resolve_left hq)
      obtain ⟨-, htza, htmissed⟩ := hw _ rfl
      rw [inOrder_of_noneArmed (noneArmed_of_fdc h.fdc hn) hfdc] at htza htmissed
      exact ⟨htza.trans hza, htmissed.trans hmissed⟩
  exact ⟨hmissed.trans h.missed, fun o => by rw [out_of_za (hza.trans h.za)]⟩

/-- R68, R70: what the Bell Scheduler rings at the step stands in the node behind it. -/
theorem rung (h : StepTaken s t u e now) (hn : s.noneArmed) (hq : e.prior ≠ .invalid) {x : SchedEntry}
    (hrung : u.rung (u.bellStep e) x u.now) (hfdc : (u.bellStep e).fdc = u.fdc) : s.rung t x now := by
  obtain ⟨b, hw⟩ := h.steps hq
  obtain ⟨-, htza, -⟩ := hw _ rfl
  rw [inOrder_of_noneArmed (noneArmed_of_fdc h.fdc hn) hfdc] at htza
  exact rung_congr h.zm h.za htza (h.now_eq ▸ hrung)

end StepTaken

/-- R6, R12: a step on the line is one taken at the Bell Scheduler. -/
theorem exec_time_stepTaken {s : State} {dt : Nat} {h : Hdr} {payload : List Byte} {lag : Word32} {first : Bool}
    {f : TimeFields} (hc : s.canHear .up) (hp : h.port = .up) (hf : timeFields payload = some f)
    (hlag : (s.arrived dt h).tb.phase + lag.toNat < 1000)
    (hsteps : s.tb.quality = .invalid ∨ s.tb.quality = .backup ∨ s.tb.epoch ≠ some f.epoch ∨
      s.mu.node.stepThreshold ≤ ((s.arrived dt h).tb.offsetMs (f.estimate s.tb.linkDelay)).natAbs) :
    ∃ t u, exec (.time dt h payload lag first) s = .next t ∧
      StepTaken s t u (s.stepEventOf (f.estimate s.tb.linkDelay) lag.toNat) (s.now + dt + lag.toNat) := by
  have hrun := exec_time_steps hc hp hf lag first hsteps
  generalize (s.arrived dt h).tb.offsetMs (f.estimate s.tb.linkDelay) = x at hrun
  generalize f.estimate s.tb.linkDelay = est at hrun ⊢
  obtain ⟨u, w, args, hreads, -, -, -, hinvalid, hstep, htake⟩ := takeStep_events hlag f est x first
  have he : (s.arrived dt h).stepEventOf est lag.toNat = s.stepEventOf est lag.toNat := by simp [State.stepEventOf]
  have hq : (s.arrived dt h).tb.quality = s.tb.quality := by simp
  rw [hq] at hinvalid hstep
  rw [he] at hstep
  obtain ⟨hcbs, hcza, hcmissed⟩ := copyDown_bells ((s.arrived dt h).takeStep f est x lag.toNat first) (h.frame 0x01 payload)
    (BitVec.ofNat 32 (s.now + dt)) (.relayTime s.tb.linkDelay)
  have hevents : ∀ k a, (w.evaluateAll.raise .time k a).bs = w.bs ∧ (w.evaluateAll.raise .time k a).za = w.za ∧
      (w.evaluateAll.raise .time k a).counter .missed = w.counter .missed := fun k a =>
    ⟨by simp, by simp, by rw [missed_raise, counter_evaluateAll apartFromEvents_missed]⟩
  obtain ⟨hwbs, hwza, hwmissed⟩ := hevents 2 args
  rw [← htake] at hwbs hwza hwmissed
  refine ⟨_, u, hrun, ⟨⟨hreads.bs.trans (by simp), hreads.za.trans (by simp), hreads.zm.trans (by simp),
    hreads.fdc.trans (by simp), hreads.mu.trans (by simp), hreads.now_eq.trans (by simp), fun c hc hsteps => ?_⟩,
    fun hi => ?_, fun hi => ⟨first, fun w' hw' => ?_⟩⟩⟩
  · have ⟨⟨_, _, hskip, _⟩, hfull, hlost, _⟩ := hc
    rw [hreads.counter c hc hsteps, counter_arrived_of_ne s hskip hfull hlost]
  · rw [hcbs, hcza, hcmissed, hwbs, hwza, hwmissed, hinvalid hi]
    exact ⟨rfl, rfl, rfl⟩
  · rw [hcbs, hcza, hcmissed, hwbs, hwza, hwmissed, hstep hi, hw']
    exact ⟨rfl, rfl, rfl⟩

/-- Settles O6, by the step event at the Bell Scheduler. -/
theorem bellSteps : Obligations.BellSteps := by
  intro s dt h payload lag first f hc hp hf v est new ms sec w bank marked derived trusted hlag hsteps
  obtain ⟨t, u, hrun, htaken⟩ := exec_time_stepTaken hc hp hf hlag hsteps
  obtain ⟨e, he⟩ : ∃ e, s.stepEventOf est lag.toNat = e := ⟨_, rfl⟩
  change StepTaken s t u (s.stepEventOf est lag.toNat) _ at htaken
  rw [he] at htaken
  have hprior : e.prior = s.tb.quality := he ▸ rfl
  have hsec : e.newMs / 1000 = sec := he ▸ rfl
  have hnewDay : e.newDay = new.2 := he ▸ rfl
  have hchanged : e.dayChanged = decide (new.2 ≠ s.tb.day) := he ▸ rfl
  have hforward : e.forward = stepForward s.tb.day s.tb.ms new.2 ms := he ▸ rfl
  have hwithin : new.2 = s.tb.day → e.forward = decide (s.tb.ms < ms) := fun hday => by
    rw [hforward, hday, stepForward_same_day]
  have htrusted : trusted → e.prior ≠ .invalid ∧ e.prior ≠ .backup := by
    rintro (hq | hq) <;> simp [hprior, hq]
  clear_value ms new
  have hbs := htaken.bs_eq
  unfold BellScheduler.afterStep at hbs
  dsimp only at hbs
  rw [hprior, hsec, hnewDay, hchanged] at hbs
  refine ⟨t, hrun, fun hd => ?_, fun hq hday hms => ?_, fun hq hday hms => ?_, fun hq hday hms habove => ?_,
    fun hn => ⟨fun hnothing => htaken.silent hn ?_, fun i hq hday hms habove hlate hpast hring honly => ?_,
      fun i hq hday hlate hpast hring honly => ?_⟩⟩
  · rw [hbs]
    obtain hq | hday := hd
    · rw [if_pos hq]
      rfl
    · split
      · rfl
      · rw [if_pos (decide_eq_true hday)]
        rfl
  · rw [hbs, if_neg hq, if_neg (by simp [hday]), if_pos (by simp [hwithin hday, hms])]
    rfl
  · rw [hbs, if_neg hq, if_neg (by simp [hday]), if_neg (by simp [hwithin hday, hms])]
  · rw [htaken.missed_eq (htrusted hq).1 (htrusted hq).2 (by simp [hchanged, hday]) (by simp [hwithin hday, hms])
      (by rw [hsec]; exact habove), hsec, passedLate_length]
  · rw [hprior, hsec, hchanged, hforward]
    obtain hq | hq | ⟨hday, hms⟩ | ⟨hday, habove⟩ | hday := hnothing
    · exact .inl hq
    · exact .inr (.inl hq)
    · refine .inr (.inr (.inl ?_))
      rw [hday, stepForward_same_day]
      exact decide_eq_false (Nat.not_lt.mpr hms)
    · exact .inr (.inr (.inr ⟨by simp [hday], habove⟩))
    · exact .inr (.inr (.inl (stepForward_of_earlier hday _ _)))
  · have hubank : u.bs.activeBank = bank := by rw [htaken.bs]
    have hstep : u.bellStep e = u.bellForward (e.oldMs / 1000) sec := by
      unfold State.bellStep
      dsimp only
      rw [if_neg (htrusted hq).2, hchanged, hwithin hday, hsec]
      simp [hday, hms]
    obtain ⟨hrung, hfdc⟩ := bellForward_rings (s := u) (sn := sec) (i := i) (by rw [htaken.bs]; exact habove)
      (by rw [htaken.bs, htaken.mu]; exact hlate) (by rw [htaken.bs]; exact hpast)
      (by rw [htaken.bs]; exact ringable_congr (congrArg _ htaken.bs) htaken.fdc hring)
      (by rw [htaken.bs, htaken.mu]; exact honly) (e.oldMs / 1000)
    rw [← hstep] at hrung hfdc
    rw [htaken.bs] at hrung
    exact htaken.rung hn (htrusted hq).1 hrung hfdc
  · have hne : new.2 ≠ s.tb.day := by
      rintro he
      simp [he] at hday
    have hstep : u.bellStep e = u.bellOtherDay e sec := by
      unfold State.bellStep
      dsimp only
      rw [if_neg (htrusted hq).2, hchanged, hsec]
      simp [hne]
    obtain ⟨hdbs, -, -, hdfdc, -⟩ := derivePlan_parts u e.newDay
    have hplan : (u.derivePlan e.newDay).bs.plan = derived.plan := by
      rw [hdbs, htaken.bs, hnewDay]
    obtain ⟨hrung, hfdc⟩ := bellOtherDay_rings (s := u) (e := e) (sn := sec) (i := i)
      (by rw [hforward]; exact stepForward_of_later hday _ _)
      (by rw [htaken.bs, htaken.mu]; exact hlate) (by rw [htaken.bs]; exact hpast)
      (by rw [htaken.bs]; exact ringable_congr (s := { s with bs := derived }) hplan (hdfdc.trans htaken.fdc) hring)
      (by rw [htaken.bs, htaken.mu]; exact honly)
    rw [← hstep] at hrung hfdc
    rw [htaken.bs] at hrung
    exact htaken.rung hn (htrusted hq).1 hrung hfdc

end Sys2Proof.Machine

/-! PROOFS. The statement on the ends of claims and of tone phases (R83, R94, R103). -/

namespace Sys2Proof.Machine

/-! ## The end of a BELL claim (R83) -/

theorem bellExpired_of_mem {s : State} {o : Output} {c : Claim} {e : Nat} (hc : c ∈ (s.out o).claims) (hsrc : c.source = .bell)
    (he : c.ends = some e) (hle : e ≤ s.now) : s.bellExpired o = true :=
  List.any_eq_true.mpr ⟨c, hc, by simp [hsrc, he, State.expired, hle]⟩

theorem exec_bellClaimExpiry_ends {s : State} {dt : Nat} {o : Output} {c : Claim} {e : Nat} (hh : s.held = false)
    (hc : c ∈ (s.out o).claims) (hsrc : c.source = .bell) (he : c.ends = some e) (hle : e ≤ s.now + dt) :
    ∃ t, exec (.bellClaimExpiry dt o) s = .next t ∧
      (t.out o).claims = (s.out o).claims.filter (fun c => decide (c.source ≠ .bell)) ∧
      (t.out o).force = (s.out o).force ∧ (∀ r, r ≠ o → t.out r = s.out r) ∧
      (s.elapse dt).keepsBut t [.za, .csv, .counters, .draws] := by
  have hexp : (s.elapse dt).bellExpired o = true :=
    bellExpired_of_mem (by rw [out_elapse]; exact hc) hsrc he (by rw [State.elapse_now]; exact hle)
  refine ⟨_, congrArg Host.Outcome.next ((live_running hh ..).trans (if_pos hexp)), ?_, ?_, fun r hr => ?_, fun p hp => ?_⟩
  · rw [(rechooseAll_out ..).1, dropClaim_claims_self, out_elapse]
  · rw [(rechooseAll_out ..).2, dropClaim_force, out_elapse]
  · rw [rechooseAll_out_ne (by simpa using hr), dropClaim_out_ne _ _ hr, out_elapse]
  · cases p <;> simp [State.samePart] at hp ⊢

/-! ## The place after a phase (R94) -/

theorem phaseEnd_of_step {p : TonePattern} {pos : TonePos} {st : ToneStep} (h : p.steps[pos.step]? = some st) :
    phaseEnd p pos = pos.since + (if pos.on then st.on else st.off) * 10000 := by
  unfold phaseEnd
  rw [h]

/-- R94: an OFF phase follows an ON phase where it has a length; else the next step, the first again, or nothing. -/
theorem nextPos_cases {p : TonePattern} {pos : TonePos} {st : ToneStep} (h : p.steps[pos.step]? = some st) (again : Bool)
    (now : Nat) :
    (pos.on = true → 0 < st.off → nextPos p again pos now = some ⟨pos.step, false, now⟩) ∧
    ((pos.on = false ∨ st.off = 0) → pos.step + 1 < p.steps.length →
      nextPos p again pos now = some ⟨pos.step + 1, true, now⟩) ∧
    ((pos.on = false ∨ st.off = 0) → p.steps.length ≤ pos.step + 1 →
      nextPos p again pos now = if again = true then some ⟨0, true, now⟩ else none) := by
  have hover : pos.on = false ∨ st.off = 0 → ¬(pos.on = true ∧ 0 < st.off) := by
    rintro (hon | hoff)
    · simp [hon]
    · simp [hoff]
  unfold nextPos afterStep
  rw [h]
  refine ⟨fun hon hoff => if_pos ⟨hon, hoff⟩, fun hphase hlt => ?_, fun hphase hle => ?_⟩
  · exact (if_neg (hover hphase)).trans (if_pos hlt)
  · exact (if_neg (hover hphase)).trans (if_neg (Nat.not_lt.mpr hle))

/-! ## The tone of an output (R94, R95) -/

/-- What an output plays from a place on; a new ON phase reads the tone level. -/
def State.playFrom (s : State) (o : Output) (level : Nat) : Option TonePos → Play
  | some pos => .tone pos (if pos.on then (s.attr o).level else level)
  | none => .finished

theorem outputPhaseEnd_eq {s : State} {o : Output} {p : TonePattern} {pos : TonePos} {level cls : Nat} {src : Source}
    {ends : Option Nat} (hplay : (s.out o).play = .tone pos level)
    (hwin : (s.out o).winning = some ⟨src, cls, .tone p, ends⟩) (hend : phaseEnd p pos ≤ s.now) :
    s.outputPhaseEnd o =
      settleScan (s.setOut o { s.out o with play := s.playFrom o level (nextPos p p.repeats pos s.now) }) := by
  unfold State.outputPhaseEnd
  rw [hplay, hwin]
  dsimp only
  rw [if_pos hend]
  cases nextPos p p.repeats pos s.now <;> rfl

theorem playFrom_elapse (s : State) (dt : Nat) (o : Output) (level : Nat) (x : Option TonePos) :
    (s.elapse dt).playFrom o level x = s.playFrom o level x := by
  cases x with
  | none => rfl
  | some pos => simp [State.playFrom, State.attr]

theorem exec_tonePhaseEnd_output {s : State} {dt : Nat} {o : Output} {p : TonePattern} {pos : TonePos} {st : ToneStep}
    {level cls : Nat} {src : Source} {ends : Option Nat} (hh : s.held = false) (hst : p.steps[pos.step]? = some st)
    (hend : pos.since + (if pos.on then st.on else st.off) * 10000 ≤ s.now + dt) (hplay : (s.out o).play = .tone pos level)
    (hwin : (s.out o).winning = some ⟨src, cls, .tone p, ends⟩) :
    ∃ t, exec (.tonePhaseEnd dt (.output o)) s = .next t ∧
      t.out o = { s.out o with play := s.playFrom o level (nextPos p p.repeats pos (s.now + dt)) } ∧
      (∀ r, r ≠ o → t.out r = s.out r) ∧ (s.elapse dt).keepsBut t [.za, .csv, .counters, .draws] := by
  have hact := outputPhaseEnd_eq (s := s.elapse dt) (o := o) (by rw [out_elapse]; exact hplay)
    (by rw [out_elapse]; exact hwin) (by rw [phaseEnd_of_step hst, State.elapse_now]; exact hend)
  refine ⟨_, congrArg Host.Outcome.next ((live_running hh ..).trans hact), ?_, fun r hr => ?_, fun q hq => ?_⟩
  · rw [out_settleScan, State.out_setOut_self, out_elapse, State.elapse_now, playFrom_elapse]
  · rw [out_settleScan, State.out_setOut_ne _ _ hr, out_elapse]
  · cases q <;> simp [State.samePart] at hq ⊢

/-! ## The chime of a call (R103) -/

theorem readLevel_out (s : State) (r : Fin 8) (o q : Output) :
    ((s.readLevel r o).out q).claims = (s.out q).claims ∧ ((s.readLevel r o).out q).winner = (s.out q).winner := by
  unfold State.readLevel
  split
  · split
    · rw [out_setOut]
      split
      · next h => rw [h]; exact ⟨rfl, rfl⟩
      · exact ⟨rfl, rfl⟩
    · exact ⟨rfl, rfl⟩
  · exact ⟨rfl, rfl⟩

theorem readLevel_keepsBut (s : State) (r : Fin 8) (o : Output) : s.keepsBut (s.readLevel r o) [.za] := by
  intro p hp
  unfold State.readLevel
  split
  · split
    · cases p <;> simp [State.samePart] at hp ⊢
    · exact State.keepsBut.refl s [.za] p hp
  · exact State.keepsBut.refl s [.za] p hp

theorem foldl_readLevel (zones : List Output) (r : Fin 8) (s : State) :
    s.keepsBut (zones.foldl (fun t o => t.readLevel r o) s) [.za] ∧
    ∀ q, ((zones.foldl (fun t o => t.readLevel r o) s).out q).claims = (s.out q).claims ∧
      ((zones.foldl (fun t o => t.readLevel r o) s).out q).winner = (s.out q).winner := by
  induction zones generalizing s with
  | nil => exact ⟨.refl s _, fun q => ⟨rfl, rfl⟩⟩
  | cons o zones ih =>
    obtain ⟨hkeeps, hout⟩ := ih (s.readLevel r o)
    exact ⟨((readLevel_keepsBut s r o).append hkeeps).mono (by decide),
      fun q => ⟨(hout q).1.trans (readLevel_out s r o q).1, (hout q).2.trans (readLevel_out s r o q).2⟩⟩

theorem chimePhaseEnd_parts {s : State} {r : Fin 8} {c : Call} {p : TonePattern} {pos : TonePos} (hr : s.call r = some c)
    (hstate : c.state = .chime) (hchime : c.chime = some p) (hpos : c.chimePos = some pos) (hend : phaseEnd p pos ≤ s.now) :
    (s.setCall r (some { c with chimePos := nextPos p false pos s.now })).keepsBut (s.chimePhaseEnd r) [.za] ∧
    ∀ q, ((s.chimePhaseEnd r).out q).claims = (s.out q).claims ∧ ((s.chimePhaseEnd r).out q).winner = (s.out q).winner := by
  unfold State.chimePhaseEnd
  rw [hr]
  dsimp only
  rw [hstate, hchime, hpos]
  dsimp only
  rw [if_pos hend]
  split
  · exact foldl_readLevel c.zones r _
  · exact ⟨.refl _ _, fun q => ⟨rfl, rfl⟩⟩

theorem exec_tonePhaseEnd_chime {s : State} {dt : Nat} {r : Fin 8} {c : Call} {p : TonePattern} {pos : TonePos}
    {st : ToneStep} (hh : s.held = false) (hst : p.steps[pos.step]? = some st)
    (hend : pos.since + (if pos.on then st.on else st.off) * 10000 ≤ s.now + dt) (hr : s.call r = some c)
    (hstate : c.state = .chime) (hchime : c.chime = some p) (hpos : c.chimePos = some pos) :
    ∃ t, exec (.tonePhaseEnd dt (.chime r)) s = .next t ∧
      t.call r = some { c with chimePos := nextPos p false pos (s.now + dt) } ∧ (∀ k, k ≠ r → t.call k = s.call k) ∧
      (∀ o, (t.out o).claims = (s.out o).claims ∧ (t.out o).winner = (s.out o).winner) ∧
      (s.elapse dt).keepsBut t [.za, .pe] := by
  have hpe : (s.elapse dt).pe = s.pe := by simp
  obtain ⟨hkeeps, hout⟩ := chimePhaseEnd_parts (s := s.elapse dt) (r := r) (by rw [call_of_pe hpe]; exact hr) hstate hchime
    hpos (by rw [phaseEnd_of_step hst, State.elapse_now]; exact hend)
  refine ⟨_, congrArg Host.Outcome.next (live_running hh ..), ?_, fun k hk => ?_, fun o => ?_, ?_⟩
  · rw [hkeeps.call (by decide), State.call_setCall_self, State.elapse_now]
  · rw [hkeeps.call (by decide), State.call_setCall_ne _ _ hk, call_of_pe hpe]
  · rw [← out_elapse s dt o]
    exact hout o
  · exact ((setCall_keepsBut (s.elapse dt) r _).append hkeeps).mono (by decide)

/-- Settles O32, by the end of a claim and the place after a phase. -/
theorem soundsEnd : Obligations.SoundsEnd := by
  intro s dt hh
  refine ⟨fun o c e hc hsrc he hle => exec_bellClaimExpiry_ends hh hc hsrc he hle, fun p pos st hst hend => ⟨?_, ?_⟩⟩
  · intro o level cls src ends hplay hwin
    obtain ⟨t, hrun, hout, hothers, hkeeps⟩ := exec_tonePhaseEnd_output hh hst hend hplay hwin
    obtain ⟨hoff, hnext, hlast⟩ := nextPos_cases hst p.repeats (s.now + dt)
    refine ⟨t, hrun, fun hon hlen => ?_, fun hphase hlt => ?_, fun hphase hle hrep => ?_, fun hphase hle hrep => ?_,
      by rw [hout], by rw [hout], hothers, hkeeps⟩
    · rw [hout, hoff hon hlen]
      rfl
    · rw [hout, hnext hphase hlt]
      rfl
    · rw [hout, hlast hphase hle, hrep]
      rfl
    · rw [hout, hlast hphase hle, hrep]
      rfl
  · intro r c hr hstate hchime hpos
    obtain ⟨t, hrun, hcall, hcalls, houts, hkeeps⟩ := exec_tonePhaseEnd_chime hh hst hend hr hstate hchime hpos
    obtain ⟨hoff, hnext, hlast⟩ := nextPos_cases hst false (s.now + dt)
    exact ⟨t, _, hrun, hcall, hoff, hnext, fun hphase hle => hlast hphase hle, hcalls, houts, hkeeps⟩

end Sys2Proof.Machine

/-! PROOFS. The statement on what the pins carry (R87 to R89, R95, R109, R125, R186, R191). -/

namespace Sys2Proof.Machine

/-! ## Rounding (Conventions) -/

theorem roundHalfAway_nonneg {n : Int} (h : 0 ≤ n) {d : Nat} (hd : 0 < d) :
    2 * d * roundHalfAway n d ≤ 2 * n + d ∧ 2 * n + d < 2 * d * roundHalfAway n d + 2 * d := by
  obtain ⟨m, rfl⟩ := Int.eq_ofNat_of_zero_le h
  have hmod := Nat.div_add_mod (2 * m + d) (2 * d)
  have hlt := Nat.mod_lt (2 * m + d) (show 0 < 2 * d by omega)
  unfold roundHalfAway
  rw [if_neg (by omega), Int.natAbs_natCast]
  generalize (2 * m + d) / (2 * d) = q at hmod ⊢
  generalize (2 * m + d) % (2 * d) = r at hmod hlt
  zify at hmod hlt
  constructor <;> linarith

theorem roundHalfAway_neg (n : Int) {d : Nat} (hd : 0 < d) : roundHalfAway (-n) d = -roundHalfAway n d := by
  unfold roundHalfAway
  rw [Int.natAbs_neg]
  dsimp only
  obtain h | rfl | h := lt_trichotomy n 0
  · rw [if_neg (by omega), if_pos h, neg_neg]
  · have hzero : (2 * (0 : Int).natAbs + d) / (2 * d) = 0 := Nat.div_eq_of_lt (by simp; omega)
    rw [hzero, neg_zero, if_neg (lt_irrefl 0)]
    rfl
  · rw [if_pos (by omega), if_neg (by omega)]

theorem natAbs_roundHalfAway (n : Int) (d : Nat) : (roundHalfAway n d).natAbs = (2 * n.natAbs + d) / (2 * d) := by
  unfold roundHalfAway
  dsimp only
  split
  · rw [Int.natAbs_neg, Int.natAbs_natCast]
  · rw [Int.natAbs_natCast]

/-! ## The page gain (R109) -/

theorem clampInt_spec (lo hi x : Int) :
    (lo ≤ x → x ≤ hi → clampInt lo hi x = x) ∧ (x < lo → clampInt lo hi x = lo) ∧
      (lo ≤ hi → hi < x → clampInt lo hi x = hi) := by
  unfold clampInt
  refine ⟨fun h h' => ?_, fun h => if_pos h, fun h h' => ?_⟩
  · rw [if_neg (by omega), if_neg (by omega)]
  · rw [if_neg (by omega), if_pos h']

theorem scaledSample_spec (x : Int) (gp gz : Nat) :
    (0 ≤ x → 16384 * scaledSample x gp gz ≤ x * gp * gz + 8192 ∧
      x * gp * gz + 8192 < 16384 * scaledSample x gp gz + 16384) ∧
    (x < 0 → x * gp * gz - 8192 ≤ 16384 * scaledSample x gp gz ∧
      16384 * scaledSample x gp gz - 16384 < x * gp * gz - 8192) := by
  unfold scaledSample
  constructor
  · intro hx
    have hexact : 0 ≤ x * gp * gz := by positivity
    obtain ⟨hle, hlt⟩ := roundHalfAway_nonneg hexact (d := 16384) (by omega)
    generalize x * gp * gz = n at *
    omega
  · intro hx
    have hexact : 0 ≤ -(x * gp * gz) := by
      have : 0 ≤ -x * gp * gz := by
        have : 0 ≤ -x := by omega
        positivity
      linarith
    obtain ⟨hle, hlt⟩ := roundHalfAway_nonneg hexact (d := 16384) (by omega)
    rw [roundHalfAway_neg _ (by omega)] at hle hlt
    generalize x * gp * gz = n at *
    omega

/-! ## The tones (R95) -/

theorem sine80_mod (k : Nat) : sine80 (k % 80) = sine80 k := by
  unfold sine80
  rw [Nat.mod_mod]

theorem natAbs_sine80_le (k : Nat) : (sine80 k).natAbs ≤ 2 ^ 48 := by
  have hall : ∀ i : Fin 80, (sine80 i.val).natAbs ≤ 2 ^ 48 := by decide
  rw [← sine80_mod]
  exact hall ⟨k % 80, Nat.mod_lt _ (by omega)⟩

/-- R95: no sample passes the peak. -/
theorem natAbs_toneSample_le (level pitch n : Nat) : (toneSample level pitch n).natAbs ≤ tonePeak level := by
  unfold toneSample
  split
  · exact Nat.zero_le _
  · have hsine := Nat.mul_le_mul_left (tonePeak level) (natAbs_sine80_le (n * (3 + pitch)))
    rw [natAbs_roundHalfAway, Int.natAbs_mul, Int.natAbs_natCast]
    omega

theorem toneSample_period (level pitch n : Nat) : toneSample level pitch (n + 80) = toneSample level pitch n := by
  have hsine : sine80 ((n + 80) * (3 + pitch)) = sine80 (n * (3 + pitch)) := by
    rw [← sine80_mod, Nat.add_mul, Nat.add_mul_mod_self_left, sine80_mod]
  unfold toneSample
  rw [hsine]

theorem toneSample_zero (level pitch : Nat) : toneSample level pitch 0 = 0 := by
  unfold toneSample
  have hsine : sine80 0 = 0 := rfl
  rw [Nat.zero_mul, hsine, mul_zero]
  split
  · rfl
  · rfl

/-- R95: the quarter of a 500 Hz tone carries the peak. -/
theorem toneSample_quarter (level : Nat) : toneSample level 2 4 = tonePeak level := by
  have hsine : sine80 (4 * (3 + 2)) = 2 ^ 48 := rfl
  unfold toneSample roundHalfAway
  rw [if_neg (by omega), hsine]
  generalize tonePeak level = p
  dsimp only
  rw [if_neg (by omega)]
  omega

/-! ## Relays and speakers (R87 to R89) -/

theorem closesRelay_iff (v : Play) :
    v.closesRelay = true ↔ (∃ pos level, v = .tone pos level ∧ pos.on = true) ∨ v = .continuous := by
  cases v <;> simp [Play.closesRelay]

theorem relayClosed_iff (s : State) (o : Output) : s.relayClosed o = true ↔ s.held = false ∧ o.val < 16 ∧
    ((∃ pos level, (s.out o).play = .tone pos level ∧ pos.on = true) ∨ (s.out o).play = .continuous) := by
  rw [← closesRelay_iff]
  simp [State.relayClosed, and_assoc]

theorem speakerSample_of_quiet {s : State} {o : Output}
    (h : (s.out o).play = .silent ∨ (s.out o).play = .finished ∨ s.held = true) : s.speakerSample o = 0 := by
  unfold State.speakerSample
  split
  · rfl
  · next hh =>
    obtain h | h | h := h
    · rw [h]
    · rw [h]
    · exact absurd h hh

/-- R95: the sample of a pattern's phase now. -/
def State.patternSample (s : State) (p : TonePattern) (pos : TonePos) (level : Nat) : Int :=
  match p.steps[pos.step]?, pos.on with
  | some st, true => toneSample level st.pitch (s.sampleIndex pos.since)
  | _, _ => 0

theorem patternSample_of_step {p : TonePattern} {pos : TonePos} {st : ToneStep} (h : p.steps[pos.step]? = some st)
    (s : State) (level : Nat) :
    s.patternSample p pos level = if pos.on then toneSample level st.pitch ((s.now - pos.since) / 125) else 0 := by
  unfold State.patternSample
  rw [h]
  cases pos.on <;> rfl

theorem speakerSample_tone {s : State} {o : Output} {pos : TonePos} {level cls : Nat} {src : Source} {ends : Option Nat}
    {p : TonePattern} (hh : s.held = false) (hplay : (s.out o).play = .tone pos level)
    (hwin : (s.out o).winning = some ⟨src, cls, .tone p, ends⟩) : s.speakerSample o = s.patternSample p pos level := by
  unfold State.speakerSample
  rw [hh, hplay, hwin]
  rfl

section
variable {s : State} {o : Output} {gz level cls : Nat} {clip ends : Option Nat} {r : Fin 8} {content : Content} {c : Call}
  (hh : s.held = false) (hplay : (s.out o).play = .page gz level clip)
  (hwin : (s.out o).winning = some ⟨.page r, cls, content, ends⟩) (hr : s.call r = some c)
include hh hplay hwin hr

/-- R88: a page winner in CHIME carries the chime. -/
theorem speakerSample_chime {p : TonePattern} {pos : TonePos} (hstate : c.state = .chime) (hchime : c.chime = some p)
    (hpos : c.chimePos = some pos) : s.speakerSample o = s.patternSample p pos level := by
  unfold State.speakerSample
  rw [hh, hplay, hwin]
  dsimp only
  rw [hr]
  dsimp only
  rw [hstate, hchime, hpos]
  rfl

theorem speakerSample_chime_over (hstate : c.state = .chime) (hpos : c.chimePos = none) : s.speakerSample o = 0 := by
  unfold State.speakerSample
  rw [hh, hplay, hwin]
  dsimp only
  rw [hr]
  dsimp only
  rw [hstate, hpos]
  cases c.chime <;> rfl

/-- R88, R109: a page winner outside CHIME carries its frame in play. -/
theorem speakerSample_frame {xs : List Int} {since gp : Nat} (hstate : c.state ≠ .chime)
    (hplays : c.inPlay = some ⟨.samples xs, since, gp⟩) :
    s.speakerSample o = playedSample (xs.getD ((s.now - since) / 125) 0) gp gz := by
  unfold State.speakerSample
  rw [hh, hplay, hwin]
  dsimp only
  rw [hr]
  dsimp only
  cases hs : c.state with
  | chime => exact absurd hs hstate
  | prefill => dsimp only; rw [hplays]; rfl
  | play => dsimp only; rw [hplays]; rfl
  | drain => dsimp only; rw [hplays]; rfl

theorem speakerSample_silence (hstate : c.state ≠ .chime)
    (hplays : c.inPlay = none ∨ ∃ since gp, c.inPlay = some ⟨.silence, since, gp⟩) : s.speakerSample o = 0 := by
  have hinPlay : ∀ x : Int, (match c.inPlay with
      | some ⟨.samples xs, since, gp⟩ => playedSample (xs.getD (s.sampleIndex since) 0) gp gz
      | _ => x) = x := fun x => by
    obtain h | ⟨since, gp, h⟩ := hplays
    · rw [h]
    · rw [h]
  unfold State.speakerSample
  rw [hh, hplay, hwin]
  dsimp only
  rw [hr]
  dsimp only
  cases hs : c.state with
  | chime => exact absurd hs hstate
  | prefill => exact hinPlay 0
  | play => exact hinPlay 0
  | drain => exact hinPlay 0

end

/-! ## The indicator lines (R186) -/

theorem toList_six {α : Type} (v : Vector α 6) : v.toList = [v[0], v[1], v[2], v[3], v[4], v[5]] := by
  refine List.ext_getElem (by simp) fun i hi _ => ?_
  rw [Vector.length_toList] at hi
  interval_cases i <;> simp

theorem clockWaiting_iff (s : State) (k : LineNo) : s.clockWaiting k = true ↔
    (s.clockCfg k).type ≠ .off ∧ (s.clockLine k).mode ∈ [ClockMode.suspended, .unknownWait, .noTime] := by
  unfold State.clockWaiting
  cases (s.clockCfg k).type <;> cases (s.clockLine k).mode <;> simp

theorem fireMute_iff (s : State) : s.fireMute = true ↔ s.fdc.fire = .active ∨ s.fdc.fire = .clearing := by
  unfold State.fireMute
  cases s.fdc.fire <;> simp

theorem indicator_iff {s : State} (hh : s.held = false) (w : Steer) : s.indicator w = true ↔
    (s.mu.node.steering[0] = w ∧ (s.line.up.link ≠ .active ∨ s.line.down.link ≠ .active)) ∨
    (s.mu.node.steering[1] = w ∧ s.tb.quality ≠ .synced) ∨
    (s.mu.node.steering[2] = w ∧ ∃ k : LineNo, (s.clockCfg k).type ≠ .off ∧
      (s.clockLine k).mode ∈ [ClockMode.suspended, .unknownWait, .noTime]) ∨
    (s.mu.node.steering[3] = w ∧ ∃ c : Circuit, (s.circ c).state = .fault) ∨
    (s.mu.node.steering[4] = w ∧ (s.fdc.fire = .active ∨ s.fdc.fire = .clearing ∨ s.fdc.trouble = true)) ∨
    (s.mu.node.steering[5] = w ∧ s.fdc.drill ≠ none) := by
  have hclocks : allLines.any s.clockWaiting = true ↔ ∃ k : LineNo, (s.clockCfg k).type ≠ .off ∧
      (s.clockLine k).mode ∈ [ClockMode.suspended, .unknownWait, .noTime] := by
    simp only [List.any_eq_true, clockWaiting_iff, mem_allLines, true_and]
  have hcircuits : allCircuits.any (fun c => decide ((s.circ c).state = .fault)) = true ↔
      ∃ c : Circuit, (s.circ c).state = .fault := by
    simp [List.any_eq_true, allCircuits]
  have hfire : (s.fireMute || s.fdc.trouble) = true ↔
      s.fdc.fire = .active ∨ s.fdc.fire = .clearing ∨ s.fdc.trouble = true := by
    rw [Bool.or_eq_true, fireMute_iff, or_assoc]
  unfold State.indicator State.standing
  rw [hh, toList_six]
  simp only [Bool.false_eq_true, if_false, List.zip_cons_cons, List.zip_nil_right, List.any_cons, List.any_nil,
    Bool.or_false, Bool.or_eq_true, Bool.and_eq_true, decide_eq_true_eq, hclocks, hcircuits, hfire, Option.isSome_iff_ne_none]

/-- Settles O33, by the cases of what an output plays and the bounds of the two roundings. -/
theorem pinsCarry : Obligations.PinsCarry := by
  refine ⟨fun s o => ⟨relayClosed_iff s o, fun hsilent hiso => ?_, speakerSample_of_quiet, fun hh => ⟨?_, ?_⟩⟩,
    fun x gp gz => ?_, fun level pitch n => ?_, fun s k => ⟨fun hh => ?_, fun hh => ?_⟩,
    fun s w hh _ => indicator_iff hh w⟩
  · have hplay := hsilent o hiso
    refine ⟨?_, speakerSample_of_quiet (.inl hplay)⟩
    rw [← Bool.not_eq_true, relayClosed_iff, hplay]
    simp
  · intro pos level cls src ends p st hplay hwin hst
    rw [speakerSample_tone hh hplay hwin, patternSample_of_step hst]
  · intro gz level clip r cls content ends c hplay hwin hr
    exact ⟨fun p pos st hstate hchime hpos hst => by
        rw [speakerSample_chime hh hplay hwin hr hstate hchime hpos, patternSample_of_step hst],
      fun hstate hpos => speakerSample_chime_over hh hplay hwin hr hstate hpos,
      fun xs since gp hstate hplays => speakerSample_frame hh hplay hwin hr hstate hplays,
      fun hstate hplays => speakerSample_silence hh hplay hwin hr hstate hplays⟩
  · obtain ⟨hpos, hneg⟩ := scaledSample_spec x gp gz
    obtain ⟨hin, hlow, hhigh⟩ := clampInt_spec (-32768) 32767 (scaledSample x gp gz)
    exact ⟨hpos, hneg, hin, hlow, hhigh (by omega)⟩
  · exact ⟨natAbs_toneSample_le level pitch n, toneSample_period level pitch n, toneSample_zero level pitch, rfl,
      toneSample_quarter level, rfl, rfl, rfl⟩
  · exact if_pos hh
  · exact if_neg (by simp [hh])

end Sys2Proof.Machine

/-! PROOFS. The claims of the FDC and the phases of a drill (R79, R163 to R168); the statement on DRILL frames and that on the
keys (R169 to R172). -/

namespace Sys2Proof.Machine

/-! ## The claims of the FDC (R79) -/

/-- The claims of an output but those of the FDC. -/
def State.otherThanFdc (s : State) (o : Output) : List Claim :=
  (s.out o).claims.filter (fun c => decide (c.source ≠ .fdc))

/-- The claim of a phase with a class and a pattern of TONES. -/
def State.fdcClaim (s : State) (cls pattern : Nat) : Claim :=
  ⟨.fdc, cls, .tone (s.za.tones.toList.getD pattern .factory), none⟩

theorem not_fdc_of_otherThanFdc {s : State} {o : Output} {c : Claim} (h : c ∈ s.otherThanFdc o) : c.source ≠ .fdc := by
  simpa using (List.mem_filter.mp h).2

theorem fdcClaims_claims (s : State) (set : List Output) (cls pattern : Nat) (o : Output) :
    ((s.fdcClaims set cls pattern).out o).claims =
      if o ∈ set then s.otherThanFdc o ++ [s.fdcClaim cls pattern] else s.otherThanFdc o := by
  have hother : ∀ (u : State) (q r : Output), r ≠ q →
      (if q ∈ set then u.addClaim (s.fdcClaim cls pattern) q else u.dropClaim .fdc q).out r = u.out r := fun u q r h => by
    split
    · exact addClaim_out_ne u _ h
    · exact dropClaim_out_ne u _ h
  have hfold : ∀ (qs : List Output), qs.Nodup → o ∈ qs → ∀ u : State, (u.out o).claims = (s.out o).claims →
      ((qs.foldl (fun u q => if q ∈ set then u.addClaim (s.fdcClaim cls pattern) q else u.dropClaim .fdc q) u).out o).claims =
        if o ∈ set then s.otherThanFdc o ++ [s.fdcClaim cls pattern] else s.otherThanFdc o := by
    intro qs
    induction qs with
    | nil => exact fun _ hin => absurd hin List.not_mem_nil
    | cons q qs ih =>
      intro hnodup hin u hu
      obtain ⟨hq, hqs⟩ := List.nodup_cons.mp hnodup
      rw [List.foldl_cons]
      by_cases hoq : o = q
      · subst hoq
        rw [foldl_out_ne hother hq]
        split
        · rw [addClaim_claims_self, hu]
          rfl
        · rw [dropClaim_claims_self, hu]
          rfl
      · exact ih hqs ((List.mem_cons.mp hin).resolve_left hoq) _ (by rw [hother u q o hoq, hu])
  exact hfold allOutputs (List.nodup_finRange 24) (mem_allOutputs o) s rfl

theorem fdcClaims_claims_of_za {s u : State} (h : u.za = s.za) (set : List Output) (cls pattern : Nat) (o : Output) :
    ((u.fdcClaims set cls pattern).out o).claims = ((s.fdcClaims set cls pattern).out o).claims := by
  rw [fdcClaims_claims, fdcClaims_claims, State.otherThanFdc, out_of_za h, State.fdcClaim, h, State.otherThanFdc,
    State.fdcClaim]

theorem fdcRelease_claims (s : State) (o : Output) : (s.fdcRelease.out o).claims = s.otherThanFdc o :=
  foldl_dropClaim_claims (mem_allOutputs o) .fdc s

@[simp] theorem fdcClaims_tones (s : State) (set : List Output) (cls pattern : Nat) :
    (s.fdcClaims set cls pattern).za.tones = s.za.tones :=
  foldl_part (fun s => s.za.tones) (fun s o => by split <;> simp) allOutputs s

/-- R79: the claims of a phase are what sounds says. -/
theorem sounds_of_claims {s t : State} {cls pattern : Nat}
    (h : ∀ o, (t.out o).claims = ((s.fdcClaims s.zm.resolveEvac cls pattern).out o).claims) : s.sounds t cls pattern := by
  constructor
  · intro o ho
    rw [h, fdcClaims_claims, if_pos ho]
    exact List.mem_append_right _ (List.mem_singleton.mpr rfl)
  · intro o ho c hc
    rw [h, fdcClaims_claims, if_neg ho] at hc
    exact not_fdc_of_otherThanFdc hc

/-- No output holds a claim of the FDC. -/
def State.fdcSilent (s : State) : Prop := ∀ o, ∀ c ∈ (s.out o).claims, c.source ≠ .fdc

theorem fdcSilent_of_release {s t : State} (h : ∀ o, (t.out o).claims = (s.fdcRelease.out o).claims) : t.fdcSilent := by
  intro o c hc
  rw [h, fdcRelease_claims] at hc
  exact not_fdc_of_otherThanFdc hc

/-! ## The end of a drill and the phases (R164 to R168) -/

/-- R164, R171: the end of a drill. -/
theorem endDrill_parts (s : State) (d : Drill) (w : DrillOutcome) :
    (s.endDrill d w).fdc = { s.fdc with
      drill := none,
      roll := if d.phase.recorded then s.fdc.roll.map (fun r => { r.close with outcome := w }) else s.fdc.roll } ∧
    (∀ o, ((s.endDrill d w).out o).claims = (s.fdcRelease.out o).claims) := by
  have hraise : ∀ (u : State) a, (u.raise .drill 4 a).fdc = u.fdc := by simp
  unfold State.endDrill
  dsimp only
  constructor
  · rw [hraise]
    split
    · simp [State.mapRoll, State.setRoll, State.setDrill]
    · simp [State.setDrill]
  · intro o
    rw [out_raise]
    split
    · rw [out_mapRoll, out_setDrill]
    · rw [out_setDrill]

theorem endDrill_keepsBut (s : State) (d : Drill) (w : DrillOutcome) :
    s.keepsBut (s.endDrill d w) [.line, .za, .fdc, .counters] := by
  intro p hp
  cases p <;> simp [State.samePart] at hp ⊢

/-- R168: the entry to ALL_CLEAR of a drill with an all-clear time. -/
theorem enterAllClear_parts {s : State} {d : Drill} (hclear : 0 < d.prog.clearTime) (byLimit : Bool) :
    (s.enterAllClear d byLimit).fdc = { s.fdc with
      drill := some { d with
        phase := .allClear, holdLimit := d.holdLimit || byLimit,
        deadline := some (s.now + d.prog.clearTime * 1000000), evacSet := some s.zm.resolveEvac },
      roll := s.fdc.roll.map (fun r => { r.close with lastPhase := 5 }) } ∧
    s.sounds (s.enterAllClear d byLimit) 1 d.prog.clearPattern ∧
    s.keepsBut (s.enterAllClear d byLimit) [.za, .fdc, .counters] := by
  have hclaims : ∀ (u : State) set, (u.fdcClaims set 1 d.prog.clearPattern).fdc = u.fdc := by simp
  unfold State.enterAllClear
  dsimp only
  rw [if_neg (by omega)]
  refine ⟨?_, sounds_of_claims fun o => ?_, fun p hp => ?_⟩
  · rw [hclaims]
    simp [State.mapRoll, State.setRoll, State.setDrill]
  · have hzm : (s.mapRoll fun r => { r.close with lastPhase := 5 }).zm = s.zm := by simp
    rw [hzm, fdcClaims_claims_of_za (s := s)]
    simp [State.setDrill]
  · cases p <;> simp [State.samePart] at hp ⊢

/-! ## DRILL frames (R161, R162, R164) -/

theorem exec_drillStart {rest : List Byte} (hlen : rest.length = 17) (dt : Nat) (h : Hdr) (s : State) :
    exec (.drillStart dt h rest) s =
      .next (live dt (fun t => t.selective 0x07 h (1 :: rest) (fun u => u.takeStartFrame (1 :: rest))) s) := by
  change carried (fits (1 :: rest)) _ = _
  rw [fits_of_length (show (1 :: rest).length = 18 by simp [hlen]) (by omega)]
  rfl

theorem exec_drillAbort {rest : List Byte} (hlen : rest.length = 17) (dt : Nat) (h : Hdr) (s : State) :
    exec (.drillAbort dt h rest) s =
      .next (live dt (fun t => t.selective 0x07 h (2 :: rest) (fun u => u.takeAbortFrame (2 :: rest))) s) := by
  change carried (fits (2 :: rest)) _ = _
  rw [fits_of_length (show (2 :: rest).length = 18 by simp [hlen]) (by omega)]
  rfl

theorem exec_drillAllClear {rest : List Byte} (hlen : rest.length = 17) (dt : Nat) (h : Hdr) (s : State) :
    exec (.drillAllClear dt h rest) s =
      .next (live dt (fun t => t.selective 0x07 h (3 :: rest) (fun u => u.takeAllClearFrame (3 :: rest))) s) := by
  change carried (fits (3 :: rest)) _ = _
  rw [fits_of_length (show (3 :: rest).length = 18 by simp [hlen]) (by omega)]
  rfl

theorem exec_drillBadCommand {payload : List Byte} (hlen : payload.length ≤ 240) (hbad : badDrillCommand payload = true)
    (dt : Nat) (h : Hdr) (s : State) : exec (.drillBadCommand dt h payload) s =
      .next (live dt (fun t => t.selective 0x07 h payload (fun u => u.count .drillBad)) s) := by
  change carried (fits payload && badDrillCommand payload) _ = _
  rw [hbad, show fits payload = true from decide_eq_true hlen]
  rfl

/-- R162: a START that is armed. -/
theorem takeStart_arms {s : State} {id day : Word16} {ms : Nat} (hdrill : s.fdc.drill = none) (hfire : s.fireMute = false)
    (hq : s.tb.quality ≠ .invalid) (hahead : 0 < campusDiff s.tb.day s.tb.ms day ms)
    (hrange : campusDiff s.tb.day s.tb.ms day ms ≤ 86400000) (program : Fin 4) :
    s.takeStart id program day ms =
      (s.setDrill (some (s.newDrill id program day ms))).raise .drill 1 (enc16 id.toNat ++ enc8 program.val ++ encCampus day ms) := by
  have houtcome : s.startOutcome id day ms = .armed := by
    unfold State.startOutcome
    rw [hdrill]
    dsimp only
    rw [if_neg (by simp [hfire]), if_neg hq, if_neg (by omega), if_neg (by omega), if_neg (by omega)]
  unfold State.takeStart
  dsimp only
  rw [houtcome]

theorem rechooseAll_keepsBut (os : List Output) (s : State) :
    s.keepsBut (rechooseAll os s) [.za, .csv, .counters, .draws] := by
  intro p hp
  cases p <;> simp [State.samePart] at hp ⊢

/-- What an act on the claims of the FDC leaves, the winners chosen behind it and a frame's copy behind that. -/
structure Drilled (u t : State) : Prop where
  fdc : t.fdc = u.fdc
  claims : ∀ o, (t.out o).claims = (u.out o).claims

theorem drilled_of_keepsBut {u t : State} {parts : List Part} (hf : Part.fdc ∉ parts) (hz : Part.za ∉ parts)
    (h : (rechooseAll allOutputs u).keepsBut t parts) : Drilled u t :=
  ⟨(show t.fdc = _ from h .fdc hf).trans (by simp), fun o => by rw [h.out hz, (rechooseAll_out ..).1]⟩

theorem drilled_rechooseAll (u : State) : Drilled u (rechooseAll allOutputs u) :=
  ⟨by simp, fun o => (rechooseAll_out ..).1⟩

theorem Drilled.silent {s t : State} {d : Drill} {w : DrillOutcome} (h : Drilled (s.endDrill d w) t) : t.fdcSilent :=
  fdcSilent_of_release fun o => (h.claims o).trans ((endDrill_parts s d w).2 o)

theorem sounds_congr {s v t u : State} {cls pattern : Nat} (hzm : v.zm = s.zm) (htones : v.za.tones = s.za.tones)
    (hclaims : ∀ o, (u.out o).claims = (t.out o).claims) (h : v.sounds t cls pattern) : s.sounds u cls pattern := by
  unfold State.sounds at h ⊢
  rw [hzm, htones] at h
  simp only [hclaims]
  exact h

/-- Settles O46, by the outcome of an arming START and the two ends of a phase. -/
theorem drillFramesTaken : Obligations.DrillFramesTaken := by
  intro s dt h rest hc hp hsel hlen id v
  have hfdc : v.fdc = s.fdc := by simp [v]
  have hzm : v.zm = s.zm := by simp [v]
  have htones : v.za.tones = s.za.tones := by simp [v]
  have hnow : v.now = s.now + dt := by simp [v]
  have hdrill : v.fdc.drill = s.fdc.drill := by rw [hfdc]
  refine ⟨?_, fun d hd hid => ?_, fun d hd hid hphase hclear => ?_, fun payload hlen' hbad => ?_⟩
  · intro p hid hprog hms hnone hfire hq hahead hrange
    have hday : v.tb.day = s.tb.day := by simp [v]
    have hvms : v.tb.ms = s.tb.ms := by simp [v]
    have hvq : v.tb.quality = s.tb.quality := by simp [v]
    obtain ⟨t, hrun, -, hkeeps⟩ := selective_owner hc hp hsel 0x07 (1 :: rest) fun u => u.takeStartFrame (1 :: rest)
    rw [exec_drillStart hlen, hrun]
    have hprogram : (⟨(byteAt (1 :: rest) 3).toNat, by have : (byteAt (1 :: rest) 3).toNat = p.val := hprog; omega⟩ : Fin 4) = p :=
      Fin.ext hprog
    have htake : v.takeStartFrame (1 :: rest) = v.takeStart id p (word16At rest 3) (word32At rest 5).toNat := by
      unfold State.takeStartFrame
      dsimp only
      rw [dif_pos (by have : (byteAt (1 :: rest) 3).toNat = p.val := hprog; omega), hprogram]
      exact if_pos ⟨by simp [hlen], hid, hms⟩
    rw [htake, takeStart_arms (hdrill.trans hnone) ((fireMute_of_fdc hfdc).trans hfire) (by rw [hvq]; exact hq)
      (by rw [hday, hvms]; exact hahead) (by rw [hday, hvms]; exact hrange)] at hkeeps
    refine ⟨t, v.newDrill id p (word16At rest 3) (word32At rest 5).toNat, rfl, ?_, rfl, rfl, rfl, ?_, rfl, rfl, ?_⟩
    · rw [show t.fdc = _ from hkeeps .fdc (by simp), ← hfdc]
      simp [State.setDrill]
    · rw [State.newDrill, hfdc]
    · have hset : ∀ x, v.keepsBut (v.setDrill x) [.fdc] := fun x q hq => by
        cases q <;> simp [State.samePart] at hq ⊢
      exact (((hset _).append (raise_keepsBut _ .drill 1 _)).append hkeeps).mono (by decide)
  · obtain ⟨t, hrun, -, hkeeps⟩ := selective_owner hc hp hsel 0x07 (2 :: rest) fun u => u.takeAbortFrame (2 :: rest)
    rw [exec_drillAbort hlen, hrun]
    have htake : v.takeAbortFrame (2 :: rest) = rechooseAll allOutputs (v.endDrill d .aborted) := by
      unfold State.takeAbortFrame State.takeAbort
      rw [if_pos (by simp [hlen]), hdrill, hd]
      exact if_pos hid
    rw [htake] at hkeeps
    have hdrilled := drilled_of_keepsBut (by decide) (by decide) hkeeps
    obtain ⟨hend, -⟩ := endDrill_parts v d .aborted
    refine ⟨t, rfl, by rw [hdrilled.fdc, hend], hdrilled.silent, by rw [hdrilled.fdc, hend, hfdc], ?_⟩
    exact (((endDrill_keepsBut v d .aborted).append (rechooseAll_keepsBut _ _)).append hkeeps).mono (by decide)
  · obtain ⟨t, hrun, -, hkeeps⟩ := selective_owner hc hp hsel 0x07 (3 :: rest) fun u => u.takeAllClearFrame (3 :: rest)
    rw [exec_drillAllClear hlen, hrun]
    have htake : v.takeAllClearFrame (3 :: rest) = rechooseAll allOutputs (v.enterAllClear d false) := by
      unfold State.takeAllClearFrame State.takeAllClear
      rw [if_pos (by simp [hlen]), hdrill, hd]
      refine (if_pos hid).trans ?_
      obtain hphase | hphase := hphase <;> rw [hphase]
    rw [htake] at hkeeps
    have hdrilled := drilled_of_keepsBut (by decide) (by decide) hkeeps
    obtain ⟨hall, hsounds, hstays⟩ := enterAllClear_parts (s := v) hclear false
    have hsounds := sounds_congr hzm htones hdrilled.claims hsounds
    refine ⟨t, rfl, ?_, fun r hr => ?_, hsounds.2, ?_⟩
    · rw [hdrilled.fdc, hall, hnow, hzm, Bool.or_false]
    · rw [hdrilled.fdc, hall, hfdc, hr]
      rfl
    · exact ((hstays.append (rechooseAll_keepsBut _ _)).append hkeeps).mono (by decide)
  · obtain ⟨t, hrun, -, hkeeps⟩ := selective_owner hc hp hsel 0x07 payload fun u => u.count .drillBad
    rw [exec_drillBadCommand hlen' hbad, hrun]
    exact ⟨t, rfl, ((countN_keepsBut v .drillBad 1).append hkeeps).mono (by decide)⟩

end Sys2Proof.Machine

/-! PROOFS. The statement on the HOLD key, the progress notice and the sweep presses (R169, R170, R172), and the phases of a
drill at their deadlines (R165 to R168). -/

namespace Sys2Proof.Machine

theorem endDrill_fdc_drill (s : State) (d : Drill) (w : DrillOutcome) :
    (s.endDrill d w).fdc.drill = none ∧ (s.endDrill d w).fdc.fire = s.fdc.fire ∧
      (s.endDrill d w).fdc.count = s.fdc.count := by
  rw [(endDrill_parts s d w).1]
  exact ⟨rfl, rfl, rfl⟩

/-! ## The keys (R169, R172) -/

/-- R169: the press of the HOLD key has been noted. -/
def State.holdKeyPressed (s : State) : State := { s with fdc := { s.fdc with holdKey := .pressed s.now } }

theorem exec_holdKeyPress_ends {s : State} {dt : Nat} {d : Drill} (hh : s.held = false) (hd : s.fdc.drill = some d)
    (hready : s.fdc.holdKey.readyAt ≤ s.now + dt) : exec (.holdKeyPress dt) s =
      .next (rechooseAll allOutputs ((s.elapse dt).holdKeyPressed.endDrill d .abortedLocal)) := by
  have hfdc : (s.elapse dt).fdc = s.fdc := by simp
  have htakes : (s.elapse dt).fdc.holdKey.ready (s.elapse dt).now = true := by
    rw [hfdc, State.elapse_now]
    exact decide_eq_true hready
  refine congrArg Host.Outcome.next ((live_running hh ..).trans ((if_pos htakes).trans ?_))
  change (s.elapse dt).holdKeyPressed.takeHoldKey = _
  unfold State.takeHoldKey
  rw [show (s.elapse dt).holdKeyPressed.fdc.drill = some d by rw [State.holdKeyPressed, ← hd, ← hfdc]]

theorem holdKeyPressed_keepsBut (s : State) : s.keepsBut s.holdKeyPressed [.fdc] := by
  intro p hp
  cases p <;> simp [State.samePart, State.holdKeyPressed] at hp ⊢

theorem setDrill_keepsBut (s : State) (x : Option Drill) : s.keepsBut (s.setDrill x) [.fdc] := by
  intro p hp
  cases p <;> simp [State.samePart] at hp ⊢

/-- R170: a progress notice that is due. -/
theorem exec_drillProgress_due {s : State} {dt : Nat} {d : Drill} (hh : s.held = false) (hd : s.fdc.drill = some d)
    (hphase : d.phase ≠ .armed) (hdue : d.runStart + (d.progress + 1) * 10000000 ≤ s.now + dt) :
    exec (.drillProgress dt) s =
      .next (((s.elapse dt).setDrill (some { d with progress := d.progress + 1 })).raise .drill 3
        (enc16 d.id.toNat ++ enc8 d.phase.code ++ enc16 ((s.now + dt - d.runStart) / 1000000) ++
          enc8 ((s.elapse dt).sweepsSoFar d))) := by
  have hfdc : (s.elapse dt).fdc = s.fdc := by simp
  refine congrArg Host.Outcome.next ((live_running hh ..).trans ?_)
  unfold State.progressDue
  rw [hfdc, hd, State.elapse_now]
  exact if_pos ⟨hphase, hdue⟩

/-- R172: the press of a sweep input has been noted. -/
def State.sweepPressed (s : State) (i : Fin 8) : State :=
  { s with fdc := { s.fdc with sweeps := s.fdc.sweeps.set i (.pressed s.now) } }

theorem sweepPressed_parts (s : State) (i : Fin 8) :
    (s.sweepPressed i).fdc.roll = s.fdc.roll ∧ (s.sweepPressed i).fdc.drill = s.fdc.drill ∧
      (s.sweepPressed i).now = s.now ∧ s.keepsBut (s.sweepPressed i) [.fdc] := by
  refine ⟨rfl, rfl, rfl, fun p hp => ?_⟩
  cases p <;> simp [State.samePart, State.sweepPressed] at hp ⊢

/-- R172: the first press of an input of an open record, with no drill in HOLD, stamps it. -/
theorem takeSweep_stamps {s : State} {i : Fin 8} {r : RollCall} (hr : s.fdc.roll = some r) (hopen : r.isOpen = true)
    (hclear : r.clear[i] = none) (hhold : ∀ d, s.fdc.drill = some d → d.phase ≠ .hold) :
    s.takeSweep i = s.setRoll (some { r with clear := r.clear.set i (some (s.clearTime r)) }) := by
  unfold State.takeSweep
  rw [hr]
  refine (if_pos ⟨hopen, hclear⟩).trans ?_
  unfold State.afterStamp
  cases hd : s.fdc.drill with
  | none => simp only [State.setRoll, hd]
  | some d => simp only [State.setRoll, hd, hhold d hd, false_and, if_false]

theorem exec_sweepPress_taken {s : State} {dt : Nat} {i : Fin 8} (hh : s.held = false)
    (hready : s.fdc.sweeps[i].readyAt ≤ s.now + dt) :
    exec (.sweepPress dt i) s = .next (((s.elapse dt).sweepPressed i).takeSweep i) := by
  have hfdc : (s.elapse dt).fdc = s.fdc := by simp
  have htakes : (s.elapse dt).fdc.sweeps[i].ready (s.elapse dt).now = true := by
    rw [State.elapse_now, hfdc]
    exact decide_eq_true hready
  exact congrArg Host.Outcome.next ((live_running hh ..).trans (if_pos htakes))

theorem setRoll_keepsBut (s : State) (x : Option RollCall) : s.keepsBut (s.setRoll x) [.fdc] := by
  intro p hp
  cases p <;> simp [State.samePart, State.setRoll] at hp ⊢

/-- Settles O48, by the three acts of the keys and the progress notice. -/
theorem drillKeysTaken : Obligations.DrillKeysTaken := by
  intro s dt hh u
  have hfdc : u.fdc = s.fdc := by simp [u]
  have hnow : u.now = s.now + dt := by simp [u]
  refine ⟨fun d hd hready => ?_, fun d hd hphase hdue => ?_, fun i r hr hopen hclear hready hhold => ?_⟩
  · have hdrilled := drilled_rechooseAll (u.holdKeyPressed.endDrill d .abortedLocal)
    obtain ⟨hdrill, hfire, hcount⟩ := endDrill_fdc_drill u.holdKeyPressed d .abortedLocal
    refine ⟨_, exec_holdKeyPress_ends hh hd hready, by rw [hdrilled.fdc, hdrill], hdrilled.silent, ?_, ?_,
      (((holdKeyPressed_keepsBut u).append (endDrill_keepsBut _ d .abortedLocal)).append (rechooseAll_keepsBut _ _)).mono
        (by decide)⟩
    · rw [hdrilled.fdc, hfire, ← hfdc]
      rfl
    · rw [hdrilled.fdc, hcount, ← hfdc]
      rfl
  · have hraise : ∀ (w : State) a, (w.raise .drill 3 a).fdc = w.fdc := by simp
    refine ⟨_, exec_drillProgress_due hh hd hphase hdue, ?_,
      ((setDrill_keepsBut u _).append (raise_keepsBut _ .drill 3 _)).mono (by decide), fun hen hroom =>
        ⟨BitVec.ofNat 8 (u.sweepsSoFar d), ?_⟩⟩
    · rw [hraise, ← hfdc]
      rfl
    · have hmu : u.mu = s.mu := by simp [u]
      have hline : u.line = s.line := by simp [u]
      exact noticed_of_raise (s := u) (cls := .drill) (by rw [hmu]; exact hen) (by rw [hline]; exact hroom) (by simp [u])
        (by simp [u]) (by simp [u]) (by simp [u]) (by simp [u]) 3 _
  · obtain ⟨hproll, hpdrill, hpnow, hpkeeps⟩ := sweepPressed_parts u i
    have hstamps := takeSweep_stamps (s := u.sweepPressed i) (i := i) (by rw [hproll, hfdc, hr]) hopen hclear
      (by rw [hpdrill, hfdc]; exact hhold)
    have hrun := exec_sweepPress_taken hh hready
    have htime : (u.sweepPressed i).clearTime r = min 65535 ((s.now + dt - r.openedAt) / 1000000) := by
      rw [State.clearTime, hpnow, hnow]
      rfl
    rw [show (s.elapse dt).sweepPressed i = u.sweepPressed i from rfl, hstamps, htime] at hrun
    exact ⟨_, hrun, rfl, hpdrill.trans (congrArg _ hfdc), (hpkeeps.append (setRoll_keepsBut _ _)).mono (by decide)⟩

/-! ## The deadlines of the phases (R165 to R168) -/

theorem atDeadline_expired {s : State} {dt : Nat} {d : Drill} {e : Nat} (hd : s.fdc.drill = some d)
    (he : d.deadline = some e) (hle : e ≤ s.now + dt) {phase : DrillPhase} (hphase : d.phase = phase) (act : Drill → State) :
    (s.elapse dt).atDeadline phase act = rechooseAll allOutputs (act d) := by
  have hfdc : (s.elapse dt).fdc = s.fdc := by simp
  unfold State.atDeadline
  rw [hfdc, hd]
  exact if_pos ⟨hphase, by simp [he, State.expired, hle]⟩

/-- R171: the record that an opening makes. -/
def State.rollOpened (s : State) (kind : RollKind) (id : Word16) (program : Option (Fin 4)) (mask : Byte) (phase : Nat) :
    RollCall :=
  { kind := kind, id := id, program := program, sweepMask := mask,
    start := if s.tb.quality = .invalid then none else some (s.tb.day, s.tb.ms),
    isOpen := true, lastPhase := BitVec.ofNat 8 phase, openedAt := s.now, clear := Vector.replicate 8 none,
    missing := 0, outcome := .none }

theorem openRoll_eq (s : State) (kind : RollKind) (id : Word16) (program : Option (Fin 4)) (mask : Byte) (phase : Nat) :
    s.openRoll kind id program mask phase = s.setRoll (some (s.rollOpened kind id program mask phase)) := rfl

/-- R166: the drill in EVACUATE from the local time of s on. -/
def State.evacuateDrill (s : State) (d : Drill) : Drill :=
  { d with
    phase := .evacuate, deadline := some (s.now + d.prog.evacTime * 1000000), evacSet := some s.zm.resolveEvac }

theorem enterEvacuate_eq (s : State) (d : Drill) : s.enterEvacuate d =
    (let v := (s.setDrill (some (s.evacuateDrill d))).fdcClaims s.zm.resolveEvac 0 d.prog.evacPattern
     v.setRoll (some (v.rollOpened .drill d.id (some d.program) d.prog.sweepMask 3))) := rfl

theorem out_setRoll (s : State) (x : Option RollCall) (o : Output) : (s.setRoll x).out o = s.out o := rfl

theorem setRoll_fdc (s : State) (x : Option RollCall) : (s.setRoll x).fdc = { s.fdc with roll := x } := rfl

theorem setDrill_fdc (s : State) (x : Option Drill) : (s.setDrill x).fdc = { s.fdc with drill := x } := rfl

/-- R166, R171: the entry to EVACUATE. -/
theorem enterEvacuate_parts (s : State) (d : Drill) :
    (s.enterEvacuate d).fdc = { s.fdc with
      drill := some (s.evacuateDrill d), roll := some (s.rollOpened .drill d.id (some d.program) d.prog.sweepMask 3) } ∧
    (∀ o, ((s.enterEvacuate d).out o).claims =
      ((s.fdcClaims s.zm.resolveEvac 0 d.prog.evacPattern).out o).claims) ∧
    s.keepsBut (s.enterEvacuate d) [.za, .fdc, .counters] := by
  rw [enterEvacuate_eq]
  have hclaims := fdcClaims_claims_of_za (s := s) (u := s.setDrill (some (s.evacuateDrill d))) (by simp [State.setDrill])
    s.zm.resolveEvac 0 d.prog.evacPattern
  have hfdc : ((s.setDrill (some (s.evacuateDrill d))).fdcClaims s.zm.resolveEvac 0 d.prog.evacPattern).fdc =
      { s.fdc with drill := some (s.evacuateDrill d) } := by simp [setDrill_fdc]
  have hnow : ((s.setDrill (some (s.evacuateDrill d))).fdcClaims s.zm.resolveEvac 0 d.prog.evacPattern).now = s.now := by simp
  have htb : ((s.setDrill (some (s.evacuateDrill d))).fdcClaims s.zm.resolveEvac 0 d.prog.evacPattern).tb = s.tb := by simp
  have hkeeps : s.keepsBut ((s.setDrill (some (s.evacuateDrill d))).fdcClaims s.zm.resolveEvac 0 d.prog.evacPattern)
      [.za, .fdc, .counters] := by
    intro p hp
    cases p <;> simp [State.samePart] at hp ⊢
  generalize (s.setDrill (some (s.evacuateDrill d))).fdcClaims s.zm.resolveEvac 0 d.prog.evacPattern = v at *
  have hroll : v.rollOpened .drill d.id (some d.program) d.prog.sweepMask 3 =
      s.rollOpened .drill d.id (some d.program) d.prog.sweepMask 3 := by
    rw [State.rollOpened, hnow, htb, State.rollOpened]
  dsimp only
  rw [hroll]
  exact ⟨by rw [setRoll_fdc, hfdc], fun o => by rw [out_setRoll, hclaims], (hkeeps.append (setRoll_keepsBut v _)).mono (by decide)⟩

/-- R166, R171: what a state reached from the entry to EVACUATE, its claims and its record standing, is. -/
theorem evacuating_of_enter {s t : State} {d : Drill} (hfdc : t.fdc = (s.enterEvacuate d).fdc)
    (hclaims : ∀ o, (t.out o).claims = ((s.enterEvacuate d).out o).claims) (htb : t.tb = s.tb) :
    s.evacuating t d s.now := by
  obtain ⟨hefdc, heclaims, -⟩ := enterEvacuate_parts s d
  refine ⟨⟨_, hfdc.trans hefdc, rfl, rfl, rfl, rfl, rfl, rfl, rfl, fun i => ?_, by rw [htb]; rfl⟩,
    sounds_of_claims fun o => (hclaims o).trans (heclaims o)⟩
  show (Vector.replicate 8 (none : Option Nat))[i] = none
  simp

/-- R167: the entry to HOLD of a drill with sweeps missing and a hold limit. -/
theorem enterHold_parts {s : State} {d : Drill} {r : RollCall} (hr : s.fdc.roll = some r)
    (hmissing : sweepsMissing d.prog.sweepMask r.clear ≠ 0) (hlimit : d.prog.holdLimit ≠ 0) :
    (s.enterHold d).fdc = { s.fdc with
      drill := some { d with
        phase := .hold, deadline := some (s.now + d.prog.holdLimit * 1000000), evacSet := none },
      roll := some { r with lastPhase := 4 } } ∧
    (∀ o, ((s.enterHold d).out o).claims = (s.fdcRelease.out o).claims) ∧
    s.keepsBut (s.enterHold d) [.za, .fdc, .counters] := by
  have hrelease : s.fdcRelease.fdc = s.fdc := by simp
  have hkeeps : s.keepsBut s.fdcRelease [.za, .fdc, .counters] := by
    intro p hp
    cases p <;> simp [State.samePart] at hp ⊢
  unfold State.enterHold
  dsimp only
  generalize s.fdcRelease = v at *
  have hmap : ∀ x, ((v.setDrill x).mapRoll fun r => { r with lastPhase := 4 }) =
      (v.setDrill x).setRoll (some { r with lastPhase := 4 }) := fun x => by
    rw [State.mapRoll, setDrill_fdc, hrelease, hr]
    rfl
  have hnot : ∀ x, ((v.setDrill (some x)).setRoll (some { r with lastPhase := 4 })).maskCleared
      { d with phase := .hold, deadline := some (s.now + d.prog.holdLimit * 1000000), evacSet := none } = false :=
    fun x => decide_eq_false hmissing
  rw [hmap, hnot, if_neg Bool.false_ne_true, if_neg hlimit]
  refine ⟨?_, fun o => rfl, ((hkeeps.append (setDrill_keepsBut v _)).append (setRoll_keepsBut _ _)).mono (by decide)⟩
  rw [setRoll_fdc, setDrill_fdc, hrelease]

end Sys2Proof.Machine

/-! PROOFS. The statement on the start of an ARMED drill and the ends of the phases (R163, R165 to R168). -/

namespace Sys2Proof.Machine

/-! ## What the other blocks leave to the FDC -/

/-- What the FDC reads and keeps, and the claims of the FDC, stand in t as in s. -/
structure FdcUntouched (s t : State) : Prop where
  fdc : t.fdc = s.fdc
  zm : t.zm = s.zm
  tones : t.za.tones = s.za.tones
  now_eq : t.now = s.now
  tb : t.tb = s.tb
  runs : t.counter .drillRuns = s.counter .drillRuns
  claims : ∀ (o : Output) (c : Claim), c.source = .fdc → (c ∈ (t.out o).claims ↔ c ∈ (s.out o).claims)

theorem apartFromEvents_drillRuns : Counter.apartFromEvents .drillRuns := by
  unfold Counter.apartFromEvents Counter.apartFromOutputs
  decide

namespace FdcUntouched

variable {s t u : State}

theorem refl (s : State) : FdcUntouched s s := ⟨rfl, rfl, rfl, rfl, rfl, rfl, fun _ _ _ => Iff.rfl⟩

theorem trans (h : FdcUntouched s t) (h' : FdcUntouched t u) : FdcUntouched s u :=
  ⟨h'.fdc.trans h.fdc, h'.zm.trans h.zm, h'.tones.trans h.tones, h'.now_eq.trans h.now_eq, h'.tb.trans h.tb,
    h'.runs.trans h.runs, fun o c hc => (h'.claims o c hc).trans (h.claims o c hc)⟩

theorem of_parts (hfdc : t.fdc = s.fdc) (hzm : t.zm = s.zm) (hza : t.za = s.za) (hnow : t.now = s.now) (htb : t.tb = s.tb)
    (hruns : t.counter .drillRuns = s.counter .drillRuns) : FdcUntouched s t :=
  ⟨hfdc, hzm, by rw [hza], hnow, htb, hruns, fun o c _ => by rw [out_of_za hza]⟩

theorem count {c : Counter} (hc : Counter.drillRuns ≠ c) (s : State) : FdcUntouched s (s.count c) :=
  of_parts (by simp) (by simp) (by simp) (by simp) (by simp) (counter_count_of_ne s hc)

theorem countN {c : Counter} (hc : Counter.drillRuns ≠ c) (s : State) (n : Nat) : FdcUntouched s (s.countN c n) :=
  of_parts (by simp) (by simp) (by simp) (by simp) (by simp) (counter_countN_of_ne s n hc)

theorem raise (s : State) (c : NoticeClass) (k : Nat) (a : List Byte) : FdcUntouched s (s.raise c k a) :=
  of_parts (by simp) (by simp) (by simp) (by simp) (by simp) (counter_raise apartFromEvents_drillRuns s c k a)

theorem setMark (s : State) (hwm : Option Nat) : FdcUntouched s (s.setMark hwm) :=
  of_parts rfl rfl rfl rfl rfl rfl

theorem derivePlan (s : State) (day : Word16) : FdcUntouched s (s.derivePlan day) :=
  of_parts (by simp) (by simp) (by simp) (by simp) (by simp) (counter_derivePlan apartFromEvents_drillRuns s day)

/-- R73: a bell touches BELL claims only. -/
theorem ring (s : State) (t : Target) (quietToo : Bool) (pattern duration : Nat) :
    FdcUntouched s (s.ring t quietToo pattern duration) := by
  refine ⟨by simp, by simp, ring_tones s t quietToo pattern duration, by simp, by simp,
    counter_ring apartFromEvents_drillRuns s t quietToo pattern duration, fun o c hc => ?_⟩
  obtain ⟨hin, hnot⟩ := ring_claims s t quietToo pattern duration o
  by_cases ho : o ∈ (s.zm.resolveBell t quietToo).set
  · have hne : c ≠ s.bellClaim pattern duration := by
      rintro rfl
      cases hc
    rw [hin ho, List.mem_append, List.mem_singleton, State.otherThanBells, List.mem_filter]
    simp [hc, hne]
  · rw [hnot ho]

/-- R162: while a drill is held, another START is ignored or refused. -/
theorem takeStart (hd : s.fdc.drill ≠ none) (id : Word16) (program : Fin 4) (day : Word16) (ms : Nat) :
    FdcUntouched s (s.takeStart id program day ms) := by
  have hrefuse : ∀ why, FdcUntouched s (s.refuseDrill id why) := fun why =>
    of_parts (by simp) (by simp) (by simp) (by simp) (by simp) (counter_refuseDrill apartFromEvents_drillRuns s id why)
  obtain ⟨d, hd⟩ := Option.ne_none_iff_exists'.mp hd
  unfold State.takeStart State.startOutcome
  rw [hd]
  dsimp only
  by_cases hid : d.id = id
  · rw [if_pos hid]
    exact refl s
  · rw [if_neg hid]
    exact hrefuse .busy

theorem fireDrillEntry (hd : s.fdc.drill ≠ none) (program : Fin 4) : FdcUntouched s (s.fireDrillEntry program) := by
  have hstart := takeStart hd 0 program s.tb.day s.tb.ms
  unfold State.fireDrillEntry
  dsimp only
  split
  · exact hstart
  · exact hstart.trans (count (by decide) _)
  · exact hstart.trans (count (by decide) _)
  · exact hstart

theorem processEntry (hd : s.fdc.drill ≠ none) (i : Fin 256) : FdcUntouched s (s.processEntry i) := by
  unfold State.processEntry State.fireBell
  dsimp only
  split
  · split
    · exact refl s
    · split
      · exact count (by decide) s
      · split
        · exact count (by decide) s
        · exact ring s _ _ _ _
    · exact fireDrillEntry hd _
  · exact refl s

theorem processEntries (hd : s.fdc.drill ≠ none) (is : List (Fin 256)) : FdcUntouched s (s.processEntries is) := by
  unfold State.processEntries
  induction is generalizing s with
  | nil => exact refl s
  | cons i is ih =>
    have hi := processEntry hd i
    exact hi.trans (ih (by rw [hi.fdc]; exact hd))

theorem swapBanks (s : State) (sec : Nat) : FdcUntouched s (s.swapBanks sec) := by
  refine of_parts (by simp) (by simp) (by simp) (by simp) (by simp) ?_
  unfold State.swapBanks
  split
  · exact counter_raise apartFromEvents_drillRuns _ _ _ _
  · rfl

theorem bellSecond (hd : s.fdc.drill ≠ none) (sec : Nat) : FdcUntouched s (s.bellSecond sec) := by
  have hswap := swapBanks s sec
  rw [bellSecond_eq]
  dsimp only
  split
  · exact hswap.trans ((processEntries (by rw [hswap.fdc]; exact hd) _).trans (setMark _ _))
  · exact hswap

theorem bellMidnight (s : State) (day : Word16) : FdcUntouched s (s.bellMidnight day) :=
  (setMark s none).trans (derivePlan _ day)

theorem bellForward (hd : s.fdc.drill ≠ none) (so sn : Nat) : FdcUntouched s (s.bellForward so sn) := by
  unfold State.bellForward
  dsimp only
  split
  · have hcount := countN (c := .missed) (by decide) s (s.passedLate sn).length
    have hlate := hcount.trans (processEntries (by rw [hcount.fdc]; exact hd) (s.lateWithin sn))
    split
    · exact hlate.trans (setMark _ _)
    · exact (hlate.trans (setMark _ _)).trans (raise _ _ _ _)
  · exact refl s

theorem bellOtherDay (hd : s.fdc.drill ≠ none) (e : StepEvent) (sn : Nat) : FdcUntouched s (s.bellOtherDay e sn) := by
  have hplan := derivePlan s e.newDay
  unfold State.bellOtherDay
  dsimp only
  refine trans (t := if _ then _ else _) ?_ (setMark _ _)
  split
  · exact hplan.trans (processEntries (by rw [hplan.fdc]; exact hd) _)
  · exact hplan

theorem bellStep (hd : s.fdc.drill ≠ none) (e : StepEvent) : FdcUntouched s (s.bellStep e) := by
  unfold State.bellStep State.bellFromBackup
  dsimp only
  split
  · split
    · exact (derivePlan s _).trans (setMark _ _)
    · split
      · exact setMark s _
      · exact refl s
  · split
    · exact bellOtherDay hd e _
    · split
      · exact bellForward hd _ _
      · exact refl s

theorem tickSteps (s : State) (ms adv : Nat) : FdcUntouched s (s.tickSteps ms adv) := by
  have hruns := counter_tickSteps apartFromEvents_drillRuns s ms adv
  have hparts : (s.tickSteps ms adv).fdc = s.fdc ∧ (s.tickSteps ms adv).zm = s.zm ∧ (s.tickSteps ms adv).za = s.za ∧
      (s.tickSteps ms adv).now = s.now ∧ (s.tickSteps ms adv).tb = s.tb := by
    unfold State.tickSteps
    split <;> simp
  obtain ⟨hfdc, hzm, hza, hnow, htb⟩ := hparts
  exact of_parts hfdc hzm hza hnow htb hruns

theorem evaluateAll (s : State) : FdcUntouched s s.evaluateAll :=
  of_parts (by simp) (by simp) (by simp) (by simp) (by simp) (counter_evaluateAll apartFromEvents_drillRuns s)

end FdcUntouched

/-! ## The start of a drill (R163, R165) -/

/-- R79: what sounds in t sounds in every state that the FDC sees as t. -/
theorem sounds_of_untouched {s s' t t' : State} {cls pattern : Nat} (hs : FdcUntouched s s') (ht : FdcUntouched t t')
    (h : s'.sounds t cls pattern) : s.sounds t' cls pattern := by
  obtain ⟨hin, hnot⟩ := h
  rw [hs.zm, hs.tones] at hin
  rw [hs.zm] at hnot
  exact ⟨fun o ho => (ht.claims o _ rfl).mpr (hin o ho), fun o ho c hc hsrc => hnot o ho c ((ht.claims o c hsrc).mp hc) hsrc⟩

theorem evacuating_of_untouched {s s' t t' : State} {d : Drill} {now : Nat} (hs : FdcUntouched s s') (ht : FdcUntouched t t')
    (h : s'.evacuating t d now) : s.evacuating t' d now := by
  obtain ⟨⟨r, hfdc, hr⟩, hsounds⟩ := h
  rw [hs.fdc, hs.zm] at hfdc
  refine ⟨⟨r, ht.fdc.trans hfdc, ?_⟩, sounds_of_untouched hs ht hsounds⟩
  rw [ht.tb]
  exact hr

theorem drillStarted_of_untouched {s s' t t' : State} {d : Drill} {now : Nat} (hs : FdcUntouched s s')
    (ht : FdcUntouched t t') (h : s'.drillStarted t d now) : s.drillStarted t' d now := by
  obtain ⟨hruns, hpre, hevac⟩ := h
  refine ⟨by rw [ht.runs, hruns, hs.runs], fun hlen => ?_, fun hlen => evacuating_of_untouched hs ht (hevac hlen)⟩
  obtain ⟨hfdc, hsounds⟩ := hpre hlen
  rw [hs.fdc, hs.zm] at hfdc
  exact ⟨ht.fdc.trans hfdc, sounds_of_untouched hs ht hsounds⟩

/-- A start is read the same from a state with the FDC, the zones, the tones and the count of s. -/
theorem drillStarted_of_reads {s v t : State} {d : Drill} {now : Nat} (hfdc : v.fdc = s.fdc) (hzm : v.zm = s.zm)
    (htones : v.za.tones = s.za.tones) (hruns : v.counter .drillRuns = s.counter .drillRuns)
    (h : v.drillStarted t d now) : s.drillStarted t d now := by
  obtain ⟨hcounted, hpre, hevac⟩ := h
  rw [hfdc, hzm] at hpre
  refine ⟨by rw [hcounted, hruns], fun hlen => ⟨(hpre hlen).1, sounds_congr hzm htones (fun _ => rfl) (hpre hlen).2⟩,
    fun hlen => ?_⟩
  obtain ⟨hroll, hsounds⟩ := hevac hlen
  rw [hfdc, hzm] at hroll
  exact ⟨hroll, sounds_congr hzm htones (fun _ => rfl) hsounds⟩

/-- The drill in PRE_ALERT from the local time of s on (R165). -/
def State.preAlertDrill (s : State) (run : Drill) : Drill :=
  { run with
    phase := .preAlert, deadline := some (s.now + run.prog.preTime * 1000000), evacSet := some s.zm.resolveEvac }

/-- The drill at the start of its run (R165). -/
def State.runDrill (s : State) (d : Drill) : Drill := { d with runStart := s.now, progress := 0, holdLimit := false }

/-- R165: a start has been counted and raised. -/
theorem startDrill_eq (s : State) (d : Drill) : ∃ args,
    s.startDrill d =
      (let v := (s.count .drillRuns).raise .drill 2 args
       if d.prog.preTime = 0 then v.enterEvacuate (s.runDrill d)
       else (v.setDrill (some (v.preAlertDrill (s.runDrill d)))).fdcClaims v.zm.resolveEvac 1 d.prog.prePattern) :=
  ⟨enc16 d.id.toNat ++ enc8 d.program.val ++ (s.count .drillRuns).campusArg, rfl⟩

theorem counter_enterEvacuate {c : Counter} (h : c.apartFromEvents) (s : State) (d : Drill) :
    (s.enterEvacuate d).counter c = s.counter c := by
  rw [enterEvacuate_eq]
  exact counter_fdcClaims h _ _ _ _

/-- R165: what the start of a drill leaves, the winners chosen behind it. -/
theorem startDrill_started (s : State) (d : Drill) :
    s.drillStarted (rechooseAll allOutputs (s.startDrill d)) d s.now := by
  obtain ⟨args, he⟩ := startDrill_eq s d
  obtain ⟨hfdc, hclaims⟩ := drilled_rechooseAll (s.startDrill d)
  have hruns : (rechooseAll allOutputs (s.startDrill d)).counter .drillRuns = (s.startDrill d).counter .drillRuns :=
    counter_rechooseAll apartFromEvents_drillRuns.1 _ _
  have htb : (rechooseAll allOutputs (s.startDrill d)).tb = s.tb := by simp
  have hvruns : ((s.count .drillRuns).raise .drill 2 args).counter .drillRuns = min 65535 (s.counter .drillRuns + 1) := by
    rw [counter_raise apartFromEvents_drillRuns, State.counter_count_self]
  have hvfdc : ((s.count .drillRuns).raise .drill 2 args).fdc = s.fdc := by simp
  have hvzm : ((s.count .drillRuns).raise .drill 2 args).zm = s.zm := by simp
  have hvza : ((s.count .drillRuns).raise .drill 2 args).za = s.za := by simp
  have hvtb : ((s.count .drillRuns).raise .drill 2 args).tb = s.tb := by simp
  have hvnow : ((s.count .drillRuns).raise .drill 2 args).now = s.now := by simp
  generalize (s.count .drillRuns).raise .drill 2 args = v at *
  generalize rechooseAll allOutputs (s.startDrill d) = t at *
  dsimp only at he
  refine ⟨?_, fun hlen => ?_, fun hlen => ?_⟩
  · rw [hruns, he]
    split
    · rw [counter_enterEvacuate apartFromEvents_drillRuns, hvruns]
    · rw [counter_fdcClaims apartFromEvents_drillRuns]
      exact hvruns
  · rw [if_neg (by omega)] at he
    have hset := fdcClaims_claims_of_za (s := s) (u := v.setDrill (some (v.preAlertDrill (s.runDrill d))))
      (by simp [State.setDrill, hvza]) s.zm.resolveEvac 1 d.prog.prePattern
    have hkept : ∀ (u : State) set, (u.fdcClaims set 1 d.prog.prePattern).fdc = u.fdc := by simp
    rw [hvzm] at he
    refine ⟨?_, sounds_of_claims fun o => ?_⟩
    · rw [hfdc, he, hkept, setDrill_fdc, hvfdc, State.preAlertDrill, hvnow, hvzm]
      rfl
    · rw [hclaims, he, hset]
  · rw [if_pos hlen] at he
    have hevac := evacuating_of_enter (s := v) (t := t) (d := s.runDrill d) (by rw [hfdc, he])
      (fun o => by rw [hclaims, he]) (htb.trans hvtb.symm)
    obtain ⟨⟨r, hrfdc, hr⟩, hsounds⟩ := hevac
    rw [hvfdc, hvzm, hvnow] at hrfdc
    rw [hvnow] at hr
    exact ⟨⟨r, hrfdc, hr⟩, sounds_congr hvzm (by rw [hvza]) (fun _ => rfl) hsounds⟩

/-- R163: an ARMED drill at a campus time. -/
theorem drillReached_armed {s : State} {d : Drill} (hd : s.fdc.drill = some d) (hphase : d.phase = .armed) (day : Word16)
    (ms : Nat) :
    (0 ≤ campusDiff d.startDay d.startMs day ms → s.drillStarted (s.drillReached day ms) d s.now) ∧
    (¬0 ≤ campusDiff d.startDay d.startMs day ms → s.drillReached day ms = s) := by
  unfold State.drillReached
  rw [hd]
  dsimp only
  constructor
  · intro hreached
    rw [if_pos ⟨hphase, hreached⟩]
    exact startDrill_started s d
  · intro hnot
    exact if_neg fun h => hnot h.2

/-- R66, R163: an event that the FDC and the Bell Scheduler take in either order, while a drill is armed. -/
theorem inOrder_drill {s : State} {d : Drill} (hd : s.fdc.drill = some d) (hphase : d.phase = .armed) (b : Bool)
    {fdc bells : State → State} {day : Word16} {ms : Nat}
    (hfdc : ∀ u : State, u.tb = s.tb → fdc u = u.drillReached day ms)
    (hbells : ∀ u : State, u.fdc.drill ≠ none → FdcUntouched u (bells u)) :
    (0 ≤ campusDiff d.startDay d.startMs day ms → s.drillStarted (inOrder b fdc bells s) d s.now) ∧
    (¬0 ≤ campusDiff d.startDay d.startMs day ms → (inOrder b fdc bells s).fdc = s.fdc) := by
  have hbs := hbells s (by simp [hd])
  unfold inOrder
  split
  · rw [hfdc s rfl]
    obtain ⟨hstarts, hstays⟩ := drillReached_armed hd hphase day ms
    constructor
    · intro hreached
      have hstarted := hstarts hreached
      refine drillStarted_of_untouched (.refl s) (hbells _ ?_) hstarted
      obtain ⟨-, hpre, hevac⟩ := hstarted
      by_cases hlen : d.prog.preTime = 0
      · obtain ⟨⟨r, he, -⟩, -⟩ := hevac hlen
        simp [he]
      · simp [(hpre (Nat.pos_of_ne_zero hlen)).1]
    · intro hnot
      rw [hstays hnot, hbs.fdc]
  · rw [hfdc (bells s) hbs.tb]
    obtain ⟨hstarts, hstays⟩ := drillReached_armed (s := bells s) (by rw [hbs.fdc, hd]) hphase day ms
    constructor
    · intro hreached
      have hstarted := hstarts hreached
      rw [hbs.now_eq] at hstarted
      exact drillStarted_of_untouched hbs (.refl _) hstarted
    · intro hnot
      rw [hstays hnot, hbs.fdc]

/-! ## The local millisecond and the step (R4, R6, R163) -/

/-- R4, R5, R163: a tick's events while a drill is armed. -/
theorem tickEvents_drill {s : State} {d : Drill} {ms adv : Nat} (hd : s.fdc.drill = some d) (hphase : d.phase = .armed)
    (b : Bool) :
    let reached := ms / 1000 < (ms + adv) / 1000 ∧
      0 ≤ campusDiff d.startDay d.startMs s.tb.day (1000 * ((ms + adv) / 1000 % 86400))
    (reached → s.drillStarted (s.tickEvents b ms adv) d s.now) ∧ (¬reached → (s.tickEvents b ms adv).fdc = s.fdc) := by
  intro reached
  have hlast : ∀ u : State, FdcUntouched u
      (if ms / 60000 < (ms + adv) / 60000 then (u.tickSteps ms adv).writeBackup else u.tickSteps ms adv) := fun u => by
    have hsteps := FdcUntouched.tickSteps u ms adv
    split
    · exact hsteps.trans (.of_parts rfl rfl rfl rfl rfl rfl)
    · exact hsteps
  have hfirst : FdcUntouched s (if Config.dayMs ≤ ms + adv then s.bellMidnight s.tb.day else s) := by
    split
    · exact .bellMidnight s _
    · exact .refl s
  rw [tickEvents_eq, State.tickBells]
  generalize (if Config.dayMs ≤ ms + adv then s.bellMidnight s.tb.day else s) = v at hfirst ⊢
  by_cases hb : ms / 1000 < (ms + adv) / 1000
  · rw [if_pos hb]
    have hvd : v.fdc.drill = some d := by rw [hfirst.fdc, hd]
    obtain ⟨hstarts, hstays⟩ := inOrder_drill (s := v) hvd hphase b (day := s.tb.day)
      (ms := 1000 * ((ms + adv) / 1000 % 86400))
      (fdc := fun u => u.drillReached u.tb.day (1000 * ((ms + adv) / 1000 % 86400)))
      (bells := fun u => u.bellSecond ((ms + adv) / 1000 % 86400)) (fun u hu => by rw [hu, hfirst.tb])
      (fun u hu => .bellSecond hu _)
    constructor
    · intro hreached
      have hstarted := hstarts hreached.2
      rw [hfirst.now_eq] at hstarted
      exact drillStarted_of_untouched hfirst (hlast _) hstarted
    · intro hnot
      rw [(hlast _).fdc]
      exact (hstays fun h => hnot ⟨hb, h⟩).trans hfirst.fdc
  · rw [if_neg hb]
    exact ⟨fun hreached => absurd hreached.1 hb, fun _ => (hlast v).fdc.trans hfirst.fdc⟩

/-- R163, R165: the local millisecond while a drill is armed. -/
theorem exec_localTick_drill {s : State} {d : Drill} (hh : s.held = false) (hq : s.tb.quality ≠ .invalid)
    (hd : s.fdc.drill = some d) (hphase : d.phase = .armed) (first : Bool) :
    let slewTick := ¬ s.tb.slewCount < 49
    let ms := s.tb.ms + (if slewTick ∧ 0 < s.tb.slew then 2 else if slewTick ∧ s.tb.slew < 0 then 0 else 1)
    let day := if ms < 86400000 then s.tb.day else s.tb.day + 1
    let reached := s.tb.ms / 1000 < ms / 1000 ∧ 0 ≤ campusDiff d.startDay d.startMs day (1000 * (ms / 1000 % 86400))
    ∃ t, exec (.localTick first) s = .next t ∧
      (reached → s.drillStarted t d (s.now + (1000 - s.tb.phase))) ∧ (¬reached → t.fdc = s.fdc) := by
  intro slewTick ms day reached
  have htb : s.ticked.tb = _ := elapsed_tick_running hh hq
  have hcount : decide (s.ticked.tb.slewCount = 0) = decide slewTick := by
    rw [htb, decide_eq_decide]
    simp only [slewTick]
    split <;> omega
  have hms : s.tb.ms + (tickAdvance (decide slewTick) s.tb.slew).1 = ms := by
    rw [tickAdvance_fst]
    simp only [decide_eq_true_eq, ms]
  have hday : s.ticked.tb.day = day := by
    simp only [day]
    rw [← hms, ← hcount, htb]
  obtain ⟨-, hza, hzm, hfdc, hnow⟩ := ticked_parts s
  have hruns : s.ticked.counter .drillRuns = s.counter .drillRuns := counter_elapse_of_ne s (by decide) _
  refine ⟨_, exec_localTick hh first, ?_⟩
  rw [localTickEvent_of_running hq, hcount]
  obtain ⟨hstarts, hstays⟩ := tickEvents_drill (s := s.ticked) (ms := s.tb.ms)
    (adv := (tickAdvance (decide slewTick) s.tb.slew).1) (by rw [hfdc, hd]) hphase first
  rw [hms, hday, hnow] at hstarts
  rw [hms, hday] at hstays
  generalize s.ticked.tickEvents first s.tb.ms (tickAdvance (decide slewTick) s.tb.slew).1 = t at *
  exact ⟨fun hreached => drillStarted_of_reads hfdc hzm (by rw [hza]) hruns (hstarts hreached),
    fun hnot => (hstays hnot).trans hfdc⟩

/-- R6, R163, R165: a step of time while a drill is armed. -/
theorem exec_time_drill {s : State} {dt : Nat} {h : Hdr} {payload : List Byte} {lag : Word32} {first : Bool} {f : TimeFields}
    {d : Drill} (hc : s.canHear .up) (hp : h.port = .up) (hf : timeFields payload = some f) (hd : s.fdc.drill = some d)
    (hphase : d.phase = .armed) (hlag : (s.arrived dt h).tb.phase + lag.toNat < 1000) (hq : s.tb.quality ≠ .invalid)
    (hsteps : s.tb.quality = .invalid ∨ s.tb.quality = .backup ∨ s.tb.epoch ≠ some f.epoch ∨
      s.mu.node.stepThreshold ≤ ((s.arrived dt h).tb.offsetMs (f.estimate s.tb.linkDelay)).natAbs) :
    let new := carryForward (f.estimate s.tb.linkDelay) lag.toNat
    let reached := 0 ≤ campusDiff d.startDay d.startMs new.2 (new.1 / 1000)
    ∃ t, exec (.time dt h payload lag first) s = .next t ∧
      (reached → s.drillStarted t d (s.now + dt + lag.toNat)) ∧ (¬reached → t.fdc = s.fdc) := by
  intro new reached
  refine ⟨_, exec_time_steps hc hp hf lag first hsteps, ?_⟩
  generalize (s.arrived dt h).tb.offsetMs (f.estimate s.tb.linkDelay) = x
  obtain ⟨u, w, args, hreads, -, -, -, -, hstep, htake⟩ := takeStep_events hlag f (f.estimate s.tb.linkDelay) x first
  have hvq : (s.arrived dt h).tb.quality = s.tb.quality := by simp
  have hw := hstep (by rw [hvq]; exact hq)
  have hufdc : u.fdc = s.fdc := hreads.fdc.trans (by simp)
  have huzm : u.zm = s.zm := hreads.zm.trans (by simp)
  have huza : u.za = s.za := hreads.za.trans (by simp)
  have hunow : u.now = s.now + dt + lag.toNat := hreads.now_eq.trans (by simp)
  have huruns : u.counter .drillRuns = s.counter .drillRuns :=
    (hreads.counter .drillRuns apartFromEvents_drillRuns (by decide)).trans
      (counter_arrived_of_ne s (by decide) (by decide) (by decide) dt h)
  have hlast : FdcUntouched w (((s.arrived dt h).takeStep f (f.estimate s.tb.linkDelay) x lag.toNat first).copyDown
      .downExpress (h.frame 0x01 payload) (BitVec.ofNat 32 (s.now + dt)) (.relayTime s.tb.linkDelay)) := by
    rw [htake]
    refine ((FdcUntouched.evaluateAll w).trans (.raise _ .time 2 args)).trans ?_
    exact .of_parts (by simp) (by simp) (by simp) (by simp) (by simp) (counter_copyDown_of_ne _ (by decide) _ _ _)
  obtain ⟨hstarts, hstays⟩ := inOrder_drill (s := u) (by rw [hufdc, hd]) hphase first
    (fdc := fun u => u.drillReached new.2 (new.1 / 1000))
    (bells := fun u => u.bellStep ((s.arrived dt h).stepEventOf (f.estimate s.tb.linkDelay) lag.toNat))
    (fun _ _ => rfl) (fun u hu => .bellStep hu _)
  generalize State.copyDown _ _ _ _ _ = t at *
  change w = inOrder first (fun u => u.drillReached new.2 (new.1 / 1000)) _ u at hw
  rw [← hw] at hstarts hstays
  refine ⟨fun hreached => ?_, fun hnot => hlast.fdc.trans ((hstays hnot).trans hufdc)⟩
  rw [hunow] at hstarts
  exact drillStarted_of_reads hufdc huzm (by rw [huza]) huruns (drillStarted_of_untouched (.refl u) hlast (hstarts hreached))

/-- Settles O47, by the start of a drill, which the bells of the event leave, and by the entries to the phases. -/
theorem drillPhasesEnd : Obligations.DrillPhasesEnd := by
  refine ⟨?_, ?_, ?_⟩
  · intro s first d hh hq _ hd hphase
    exact exec_localTick_drill hh hq hd hphase first
  · intro s dt h payload lag first f d hc hp hf hd hphase v est new reached hlag hq hsteps
    exact exec_time_drill hc hp hf hd hphase hlag hq (.inr hsteps)
  · intro s dt d e hh hd he hle set u
    have hfdc : u.fdc = s.fdc := by simp [u]
    have hzm : u.zm = s.zm := by simp [u]
    have hnow : u.now = s.now + dt := by simp [u]
    refine ⟨fun hphase => ?_, fun r hphase hr hmissing hlimit => ?_, fun hphase hclear => ?_, fun hphase => ?_⟩
    · refine ⟨_, congrArg Host.Outcome.next ((live_running hh ..).trans (atDeadline_expired hd he hle hphase _)), ?_, ?_⟩
      · have hdrilled := drilled_rechooseAll (u.enterEvacuate d)
        rw [← hnow]
        exact evacuating_of_enter hdrilled.fdc hdrilled.claims (by simp [u])
      · exact ((enterEvacuate_parts u d).2.2.append (rechooseAll_keepsBut allOutputs _)).mono (by decide)
    · refine ⟨_, congrArg Host.Outcome.next ((live_running hh ..).trans (atDeadline_expired hd he hle hphase _)), ?_⟩
      obtain ⟨hhold, hclaims, hkeeps⟩ := enterHold_parts (s := u) (by rw [hfdc, hr]) hmissing hlimit
      have hdrilled := drilled_rechooseAll (u.enterHold d)
      refine ⟨by rw [hdrilled.fdc, hhold, hnow], by rw [hdrilled.fdc, hhold],
        fdcSilent_of_release fun o => (hdrilled.claims o).trans (hclaims o),
        (hkeeps.append (rechooseAll_keepsBut allOutputs _)).mono (by decide)⟩
    · refine ⟨_, congrArg Host.Outcome.next ((live_running hh ..).trans (atDeadline_expired hd he hle hphase _)), ?_⟩
      obtain ⟨hall, -, hkeeps⟩ := enterAllClear_parts (s := u) hclear true
      have hdrilled := drilled_rechooseAll (u.enterAllClear d true)
      refine ⟨by rw [hdrilled.fdc, hall, hnow, hzm, Bool.or_true], fun r hr => ?_,
        (hkeeps.append (rechooseAll_keepsBut allOutputs _)).mono (by decide)⟩
      rw [hdrilled.fdc, hall, hfdc, hr]
      rfl
    · refine ⟨_, congrArg Host.Outcome.next ((live_running hh ..).trans (atDeadline_expired hd he hle hphase _)), ?_⟩
      obtain ⟨hend, -⟩ := endDrill_parts u d (if d.holdLimit then .incomplete else .complete)
      have hdrilled := drilled_rechooseAll (u.endDrill d (if d.holdLimit then .incomplete else .complete))
      refine ⟨by rw [hdrilled.fdc, hend], hdrilled.silent, fun r hr => ?_,
        ((endDrill_keepsBut u d _).append (rechooseAll_keepsBut allOutputs _)).mono (by decide)⟩
      rw [hdrilled.fdc, hend, hphase, hfdc, hr]
      rfl

end Sys2Proof.Machine

/-! PROOFS. The statement on the FIRE channel (R154 to R158, R171). -/

namespace Sys2Proof.Machine

/-! ## The entry to ACTIVE (R157) -/

theorem supersede_parts (s : State) : s.supersede.fdc = { s.fdc with drill := none } ∧ s.supersede.za = s.za ∧
    s.supersede.zm = s.zm ∧ s.supersede.mu = s.mu ∧ s.supersede.now = s.now := by
  unfold State.supersede
  cases hd : s.fdc.drill with
  | none =>
    have hsame : s.fdc = { s.fdc with drill := none } := by rw [← hd]
    exact ⟨hsame, rfl, rfl, rfl, rfl⟩
  | some d =>
    dsimp only
    refine ⟨?_, by simp, by simp, by simp, by simp⟩
    simp [setDrill_fdc]

theorem setFire_fdc (s : State) (f : FireState) (k : Nat) : (s.setFire f k).fdc = { s.fdc with fire := f, count := k } := rfl

theorem setFireSet_fdc (s : State) (x : Option (List Output)) : (s.setFireSet x).fdc = { s.fdc with fireSet := x } := rfl

/-- R157: the claims of a fire, those of the evacuation set with evac on fire, else none. -/
theorem fireClaims_parts (s : State) :
    s.fireClaims.fdc = { s.fdc with fireSet := if s.mu.node.evacOnFire = true then some s.zm.resolveEvac else none } ∧
    s.fireClaims.mu = s.mu ∧ s.fireClaims.now = s.now ∧
    ∀ o, (s.fireClaims.out o).claims = (if s.mu.node.evacOnFire = true then
      ((s.fdcClaims s.zm.resolveEvac 0 s.mu.node.firePattern).out o).claims else (s.fdcRelease.out o).claims) := by
  have hset : ∀ (u : State) x o, (u.setFireSet x).out o = u.out o := fun _ _ _ => rfl
  unfold State.fireClaims
  split
  · have hkept : ∀ u : State, (u.fdcClaims s.zm.resolveEvac 0 s.mu.node.firePattern).fdc = u.fdc := by simp
    exact ⟨by rw [setFireSet_fdc, hkept], by simp [State.setFireSet], by simp [State.setFireSet], fun o => by rw [hset]⟩
  · have hkept : s.fdcRelease.fdc = s.fdc := by simp
    exact ⟨by rw [setFireSet_fdc, hkept], by simp [State.setFireSet], by simp [State.setFireSet], fun o => by rw [hset]⟩

/-- What an entry to ACTIVE leaves: the FDC with the fire's record, and the claims of the fire. -/
structure FireEntered (s t : State) : Prop where
  fdc : ∃ r, t.fdc = { s.fdc with
      fire := .active, count := 0, drill := none, roll := some r,
      fireSet := if s.mu.node.evacOnFire = true then some s.zm.resolveEvac else none } ∧
    r.kind = .fire ∧ r.isOpen = true ∧ r.sweepMask = s.mu.node.fireSweeps ∧ r.openedAt = s.now
  claims : ∀ o, (t.out o).claims = if s.mu.node.evacOnFire = true then
    ((s.fdcClaims s.zm.resolveEvac 0 s.mu.node.firePattern).out o).claims else (s.fdcRelease.out o).claims

theorem enterFire_entered (s : State) (reading : Byte) : FireEntered s (s.enterFire reading) := by
  obtain ⟨hsfdc, hsza, hszm, hsmu, hsnow⟩ := supersede_parts s
  obtain ⟨hcfdc, hcmu, hcnow, hcclaims⟩ := fireClaims_parts (s.supersede.setFire .active 0)
  have hfza : (s.supersede.setFire .active 0).za = s.za := hsza
  have hfzm : (s.supersede.setFire .active 0).zm = s.zm := hszm
  have hfmu : (s.supersede.setFire .active 0).mu = s.mu := hsmu
  have hfnow : (s.supersede.setFire .active 0).now = s.now := hsnow
  rw [setFire_fdc, hsfdc, hfmu, hfzm] at hcfdc
  rw [hfmu] at hcmu hcclaims
  rw [hfnow] at hcnow
  rw [hfzm] at hcclaims
  have hrelease : ∀ o, ((s.supersede.setFire .active 0).fdcRelease.out o).claims = (s.fdcRelease.out o).claims := fun o => by
    rw [fdcRelease_claims, fdcRelease_claims, State.otherThanFdc, out_of_za hfza, State.otherThanFdc]
  have hset := fdcClaims_claims_of_za hfza s.zm.resolveEvac 0 s.mu.node.firePattern
  rw [enterFire_eq]
  generalize (s.supersede.setFire .active 0).fireClaims = v at *
  dsimp only
  rw [openRoll_eq]
  have hacts : ∀ (u : State) a,
      (rechooseAll allOutputs ((u.count .fireActivations).raise .fire 1 a)).fdc = u.fdc ∧
      ∀ o, ((rechooseAll allOutputs ((u.count .fireActivations).raise .fire 1 a)).out o).claims = (u.out o).claims := fun u a =>
    ⟨by simp, fun o => by rw [(rechooseAll_out ..).1, out_raise, out_count]⟩
  obtain ⟨hafdc, haclaims⟩ := hacts (v.setRoll (some (v.rollOpened .fire 0 none v.mu.node.fireSweeps 2)))
    (reading :: ((v.setRoll (some (v.rollOpened .fire 0 none v.mu.node.fireSweeps 2))).campusArg))
  refine ⟨⟨v.rollOpened .fire 0 none v.mu.node.fireSweeps 2, ?_, rfl, rfl, by rw [State.rollOpened, hcmu], hcnow⟩, fun o => ?_⟩
  · refine hafdc.trans ?_
    rw [setRoll_fdc, hcfdc]
  · refine (haclaims o).trans ?_
    rw [out_setRoll, hcclaims]
    split
    · exact hset o
    · exact hrelease o

/-! ## The return to QUIET (R158) -/

/-- What a return to QUIET leaves. -/
structure FireLeft (s t : State) : Prop where
  fdc : t.fdc = { s.fdc with fire := .quiet, count := 0, fireSet := none, roll := s.fdc.roll.map RollCall.fireOver }
  released : ∀ o ∈ s.fdc.fireSet.getD [], (t.out o).claims = s.otherThanFdc o
  kept : ∀ o, o ∉ s.fdc.fireSet.getD [] → (t.out o).claims = (s.out o).claims

theorem leaveFire_left (s : State) : FireLeft s s.leaveFire := by
  rw [leaveFire_eq]
  let v := (s.setFire .quiet 0).fireRelease
  have hvfdc : v.fdc = { s.fdc with fire := .quiet, count := 0, fireSet := none } := by
    have hdrop : ∀ (os : List Output) (u : State), (os.foldl (fun u o => u.dropClaim .fdc o) u).fdc = u.fdc := fun os u => by
      simp
    change (State.setFireSet _ none).fdc = _
    rw [setFireSet_fdc, hdrop, setFire_fdc]
  have hvout : ∀ o, v.out o =
      ((s.fdc.fireSet.getD []).foldl (fun u o => u.dropClaim .fdc o) (s.setFire .quiet 0)).out o := fun _ => rfl
  have hraised : ∀ u : State, (rechooseAll allOutputs (match u.fdc.roll with
      | some r => u.raise .fire 2 (enc8 r.outcome.code ++ enc8 r.missing)
      | none => u)).fdc = u.fdc ∧
      ∀ o, ((rechooseAll allOutputs (match u.fdc.roll with
        | some r => u.raise .fire 2 (enc8 r.outcome.code ++ enc8 r.missing)
        | none => u)).out o).claims = (u.out o).claims := fun u => by
    cases u.fdc.roll with
    | none => exact ⟨by simp, fun o => (rechooseAll_out ..).1⟩
    | some r => exact ⟨by simp, fun o => by rw [(rechooseAll_out ..).1, out_raise]⟩
  obtain ⟨hfdc, hclaims⟩ := hraised (v.mapRoll RollCall.fireOver)
  have hmap : (v.mapRoll RollCall.fireOver).fdc =
      { s.fdc with fire := .quiet, count := 0, fireSet := none, roll := s.fdc.roll.map RollCall.fireOver } := by
    rw [State.mapRoll, setRoll_fdc, hvfdc]
  refine ⟨hfdc.trans hmap, fun o ho => (hclaims o).trans ?_, fun o ho => (hclaims o).trans ?_⟩
  · rw [out_mapRoll, hvout, foldl_dropClaim_claims ho]
    rfl
  · rw [out_mapRoll, hvout, foldl_dropClaim_out_ne ho]
    rfl

/-! ## The readings (R155, R156) -/

/-- R156: the trouble run is over. -/
theorem troubleEnds_parts (s : State) (reading : Byte) :
    (s.troubleEnds reading).fdc = { s.fdc with troubleRun := 0, trouble := false } ∧ (s.troubleEnds reading).za = s.za ∧
      (s.troubleEnds reading).zm = s.zm ∧ (s.troubleEnds reading).mu = s.mu ∧ (s.troubleEnds reading).now = s.now := by
  have hraise : ∀ (u : State) a, (u.raise .fire 4 a).fdc = u.fdc := by simp
  refine ⟨?_, ?_, by simp, by simp, by simp⟩
  · unfold State.troubleEnds
    dsimp only
    split
    · rw [hraise]
    · rfl
  · unfold State.troubleEnds
    dsimp only
    split <;> simp

/-- R156: a trouble reading. -/
theorem fireTroubled_parts (s : State) (reading : Byte) :
    (s.fireTroubled reading).fdc = { s.fdc with
      troubleRun := min 10 (s.fdc.troubleRun + 1), trouble := s.fdc.trouble || decide (s.fdc.troubleRun = 9) } ∧
    (s.fireTroubled reading).za = s.za := by
  have hacts : ∀ (u : State) a, ((u.count .fireTrouble).raise .fire 3 a).fdc = u.fdc ∧
      ((u.count .fireTrouble).raise .fire 3 a).za = u.za := fun u a => by simp
  unfold State.fireTroubled
  dsimp only
  by_cases hrun : s.fdc.troubleRun = 9
  · have hten : s.fdc.troubleRun + 1 = 10 := by omega
    rw [if_pos hten, (hacts _ _).1, (hacts _ _).2, decide_eq_true hrun, Bool.or_true]
    exact ⟨rfl, rfl⟩
  · rw [if_neg (by omega), decide_eq_false hrun, Bool.or_false]
    exact ⟨rfl, rfl⟩

/-- R155: what an active reading makes of each fire state. -/
theorem fireActive_cases (s : State) (reading : Byte) :
    (s.fdc.fire = .quiet → 2 ≤ s.mu.node.activateDelay → s.fireActive reading = s.setFire .pending 1) ∧
    (s.fdc.fire = .pending → s.fdc.count + 1 < s.mu.node.activateDelay →
      s.fireActive reading = s.setFire .pending (s.fdc.count + 1)) ∧
    (s.fdc.fire = .active → s.fireActive reading = s) ∧
    (s.fdc.fire = .clearing → s.fireActive reading = s.moveFire .active 0) ∧
    (s.fdc.fire = .pending ∧ s.mu.node.activateDelay ≤ s.fdc.count + 1 ∨
        s.fdc.fire = .quiet ∧ s.mu.node.activateDelay ≤ 1 → s.fireActive reading = s.enterFire reading) := by
  unfold State.fireActive
  refine ⟨fun h hd => ?_, fun h hd => ?_, fun h => by rw [h], fun h => by rw [h], ?_⟩
  · rw [h]
    exact if_neg (by omega)
  · rw [h]
    exact if_neg (by omega)
  · rintro (⟨h, hd⟩ | ⟨h, hd⟩)
    · rw [h]
      exact if_pos hd
    · rw [h]
      exact if_pos hd

/-- R155: what an inactive reading makes of each fire state. -/
theorem fireInactive_cases (s : State) :
    (s.fdc.fire = .quiet → s.fireInactive = s) ∧ (s.fdc.fire = .pending → s.fireInactive = s.setFire .quiet 0) ∧
    (s.fdc.fire = .active → 2 ≤ s.mu.node.clearDelay → s.fireInactive = s.moveFire .clearing 1) ∧
    (s.fdc.fire = .clearing → s.fdc.count + 1 < s.mu.node.clearDelay →
      s.fireInactive = s.setFire .clearing (s.fdc.count + 1)) ∧
    (s.fdc.fire = .active ∧ s.mu.node.clearDelay ≤ 1 ∨
        s.fdc.fire = .clearing ∧ s.mu.node.clearDelay ≤ s.fdc.count + 1 → s.fireInactive = s.leaveFire) := by
  unfold State.fireInactive
  refine ⟨fun h => by rw [h], fun h => by rw [h], fun h hd => ?_, fun h hd => ?_, ?_⟩
  · rw [h]
    exact if_neg (by omega)
  · rw [h]
    exact if_neg (by omega)
  · rintro (⟨h, hd⟩ | ⟨h, hd⟩)
    · rw [h]
      exact if_pos hd
    · rw [h]
      exact if_pos hd

theorem moveFire_fdc (s : State) (f : FireState) (k : Nat) : (s.moveFire f k).fdc =
    { s.fdc with fire := f, count := k, roll := s.fdc.roll.map fun r => { r with lastPhase := BitVec.ofNat 8 f.code } } := rfl

/-- What a reading leaves of the parts of the FDC that are no state of the fire. -/
structure FireQuietParts (s t : State) : Prop where
  nextCheck : t.fdc.nextCheck = s.fdc.nextCheck
  troubleRun : t.fdc.troubleRun = s.fdc.troubleRun
  trouble : t.fdc.trouble = s.fdc.trouble

theorem fireActive_quietParts (s : State) (reading : Byte) : FireQuietParts s (s.fireActive reading) := by
  have henter : FireQuietParts s (s.enterFire reading) := by
    obtain ⟨⟨r, he, -⟩, -⟩ := enterFire_entered s reading
    exact ⟨by rw [he], by rw [he], by rw [he]⟩
  unfold State.fireActive
  dsimp only
  split
  · split
    · exact henter
    · exact ⟨rfl, rfl, rfl⟩
  · split
    · exact henter
    · exact ⟨rfl, rfl, rfl⟩
  · exact ⟨rfl, rfl, rfl⟩
  · exact ⟨rfl, rfl, rfl⟩

theorem fireInactive_quietParts (s : State) : FireQuietParts s s.fireInactive := by
  have hleave : FireQuietParts s s.leaveFire := by
    obtain ⟨he, -, -⟩ := leaveFire_left s
    exact ⟨by rw [he], by rw [he], by rw [he]⟩
  unfold State.fireInactive
  dsimp only
  split
  · exact ⟨rfl, rfl, rfl⟩
  · exact ⟨rfl, rfl, rfl⟩
  · split
    · exact hleave
    · exact ⟨rfl, rfl, rfl⟩
  · split
    · exact hleave
    · exact ⟨rfl, rfl, rfl⟩

/-! ## A check (R154) -/

/-- The state in which a check is read: the next one is due 100 ms after this one was (R154). -/
def State.checkDue (s : State) : State := { s with fdc := { s.fdc with nextCheck := s.fdc.nextCheck + 100000 } }

theorem exec_fireCheck_due {s : State} {dt : Nat} (hh : s.held = false) (hdue : s.fdc.nextCheck ≤ s.now + dt)
    (reading : Byte) : exec (.fireCheck dt reading) s = .next ((s.elapse dt).checkDue.fireReading reading) := by
  have hfdc : (s.elapse dt).fdc = s.fdc := by simp
  exact congrArg Host.Outcome.next ((live_running hh ..).trans (if_pos (by rw [hfdc, State.elapse_now]; exact hdue)))

theorem fireReading_of_class (s : State) (reading : Byte) :
    (s.mu.node.fireClass reading = .trouble → s.fireReading reading = s.fireTroubled reading) ∧
    (s.mu.node.fireClass reading = .active → s.fireReading reading = (s.troubleEnds reading).fireActive reading) ∧
    (s.mu.node.fireClass reading = .inactive → s.fireReading reading = (s.troubleEnds reading).fireInactive) := by
  unfold State.fireReading
  exact ⟨fun h => by rw [h], fun h => by rw [h], fun h => by rw [h]⟩

/-- The state in which a reading that is no trouble is taken. -/
def State.readingTaken (s : State) (dt : Nat) (reading : Byte) : State := (s.elapse dt).checkDue.troubleEnds reading

theorem readingTaken_parts (s : State) (dt : Nat) (reading : Byte) :
    (s.readingTaken dt reading).fdc =
      { s.fdc with nextCheck := s.fdc.nextCheck + 100000, troubleRun := 0, trouble := false } ∧
    (s.readingTaken dt reading).za = s.za ∧ (s.readingTaken dt reading).zm = s.zm ∧
    (s.readingTaken dt reading).mu = s.mu ∧ (s.readingTaken dt reading).now = s.now + dt := by
  obtain ⟨hfdc, hza, hzm, hmu, hnow⟩ := troubleEnds_parts (s.elapse dt).checkDue reading
  have hefdc : (s.elapse dt).fdc = s.fdc := by simp
  refine ⟨hfdc.trans ?_, hza.trans (by simp [State.checkDue]), hzm.trans (by simp [State.checkDue]),
    hmu.trans (by simp [State.checkDue]), hnow.trans (by simp [State.checkDue])⟩
  simp only [State.checkDue, hefdc]

/-- R157: the entry to ACTIVE in the words of the statement. -/
theorem fireEntered_spec {s u t : State} (hzm : u.zm = s.zm) (hza : u.za = s.za) (hmu : u.mu = s.mu) (h : FireEntered u t) :
    t.fdc.fire = .active ∧ t.fdc.count = 0 ∧ t.fdc.drill = none ∧
      (∃ r, t.fdc.roll = some r ∧ r.kind = .fire ∧ r.isOpen = true ∧ r.sweepMask = s.mu.node.fireSweeps ∧
        r.openedAt = u.now) ∧
      (s.mu.node.evacOnFire = true → t.fdc.fireSet = some s.zm.resolveEvac ∧
        ∀ o ∈ s.zm.resolveEvac,
          (⟨.fdc, 0, .tone (s.za.tones.toList.getD s.mu.node.firePattern .factory), none⟩ : Claim) ∈ (t.out o).claims) ∧
      ∀ o, (s.mu.node.evacOnFire = false ∨ o ∉ s.zm.resolveEvac) → ∀ c ∈ (t.out o).claims, c.source ≠ .fdc := by
  obtain ⟨⟨r, hfdc, hkind, hopen, hmask, hat⟩, hclaims⟩ := h
  rw [hmu] at hfdc hmask hclaims
  rw [hzm] at hfdc hclaims
  refine ⟨by rw [hfdc], by rw [hfdc], by rw [hfdc], ⟨r, by rw [hfdc], hkind, hopen, hmask, hat⟩, fun hevac => ?_,
    fun o ho c hc => ?_⟩
  · refine ⟨by rw [hfdc]; exact if_pos hevac, fun o ho => ?_⟩
    rw [hclaims, if_pos hevac, fdcClaims_claims, if_pos ho, State.fdcClaim, hza]
    exact List.mem_append_right _ (List.mem_singleton.mpr rfl)
  · rw [hclaims] at hc
    by_cases hevac : s.mu.node.evacOnFire = true
    · rw [if_pos hevac, fdcClaims_claims, if_neg (ho.resolve_left (by simp [hevac]))] at hc
      exact not_fdc_of_otherThanFdc hc
    · rw [if_neg hevac, fdcRelease_claims] at hc
      exact not_fdc_of_otherThanFdc hc

/-- Settles O45, by what a reading of each class makes of each fire state. -/
theorem fireChecked : Obligations.FireChecked := by
  intro s dt reading hh hdue nf nc k cls
  refine ⟨_, exec_fireCheck_due hh hdue reading, ?_⟩
  obtain ⟨htrouble, hactive, hinactive⟩ := fireReading_of_class (s.elapse dt).checkDue reading
  have hcls : (s.elapse dt).checkDue.mu.node.fireClass reading = cls := by simp [State.checkDue, cls]
  rw [hcls] at htrouble hactive hinactive
  have hefdc : (s.elapse dt).checkDue.fdc = { s.fdc with nextCheck := s.fdc.nextCheck + 100000 } := by
    simp [State.checkDue]
  obtain ⟨htfdc, htza⟩ := fireTroubled_parts (s.elapse dt).checkDue reading
  rw [hefdc] at htfdc
  replace htza := htza.trans (show (s.elapse dt).checkDue.za = s.za by simp [State.checkDue])
  have hkeeps : (s.elapse dt).keepsBut ((s.elapse dt).checkDue.fireReading reading) [.line, .za, .csv, .fdc, .counters, .draws] := by
    intro p hp
    cases p <;> simp [State.samePart, State.checkDue] at hp ⊢
  obtain ⟨hfdc, hza, hzm, hmu, hnow⟩ := readingTaken_parts s dt reading
  change cls = .active → _ = (s.readingTaken dt reading).fireActive reading at hactive
  change cls = .inactive → _ = (s.readingTaken dt reading).fireInactive at hinactive
  have hqa := fireActive_quietParts (s.readingTaken dt reading) reading
  have hqi := fireInactive_quietParts (s.readingTaken dt reading)
  obtain ⟨haq, hap, haa, hac, hae⟩ := fireActive_cases (s.readingTaken dt reading) reading
  obtain ⟨hiq, hip, hia, hic, hil⟩ := fireInactive_cases (s.readingTaken dt reading)
  have hentered := fireEntered_spec hzm hza hmu (enterFire_entered (s.readingTaken dt reading) reading)
  have hleft := leaveFire_left (s.readingTaken dt reading)
  have hmoved := moveFire_fdc (s.readingTaken dt reading)
  have hset := setFire_fdc (s.readingTaken dt reading)
  have hmza : ∀ f n, ((s.readingTaken dt reading).moveFire f n).za = s.za := fun _ _ => hza
  have hsza : ∀ f n, ((s.readingTaken dt reading).setFire f n).za = s.za := fun _ _ => hza
  have hother := fun o => (show (s.readingTaken dt reading).otherThanFdc o = s.otherThanFdc o by
    rw [State.otherThanFdc, out_of_za hza, State.otherThanFdc])
  have hout := out_of_za hza
  generalize s.readingTaken dt reading = v at *
  generalize (s.elapse dt).checkDue.fireReading reading = t at *
  rw [hfdc, hmu] at haq hap hae hia hic hil
  rw [hfdc] at haa hac hiq hip hmoved hset
  dsimp only at haq hap haa hac hae hiq hip hia hic hil hmoved hset
  rw [hnow] at hentered
  refine ⟨?_, fun hc hf hd => ?_, fun hc hf hd => ?_, fun hc hf => ?_, fun h => ?_, fun hc => ?_, fun hc => ?_,
    fun hc h => ?_, fun hc hf hd => ?_, fun hc hf hd => ?_, fun hc hf => ?_, fun hc h => ?_, hkeeps⟩
  · cases hc : cls with
    | trouble => rw [htrouble hc, htfdc]
    | active => rw [hactive hc, hqa.nextCheck, hfdc]
    | inactive => rw [hinactive hc, hqi.nextCheck, hfdc]
  · rw [hactive hc, haq hf hd, hset, hsza]
    exact ⟨rfl, rfl, rfl⟩
  · rw [hactive hc, hap hf hd, hset, hsza]
    exact ⟨rfl, rfl, rfl⟩
  · rw [hinactive hc, hip hf, hset, hsza]
    exact ⟨rfl, rfl, rfl⟩
  · have ht : t = v := by
      obtain ⟨hc, hf⟩ | ⟨hc, hf⟩ := h
      · rw [hinactive hc, hiq hf]
      · rw [hactive hc, haa hf]
    rw [ht, hfdc, hza]
    exact ⟨rfl, rfl, rfl⟩
  · rw [htrouble hc, htfdc, htza]
    exact ⟨rfl, rfl, rfl, rfl, rfl⟩
  · cases hc' : cls with
    | trouble => exact absurd hc' hc
    | active =>
      rw [hactive hc', hqa.troubleRun, hqa.trouble, hfdc]
      exact ⟨rfl, rfl⟩
    | inactive =>
      rw [hinactive hc', hqi.troubleRun, hqi.trouble, hfdc]
      exact ⟨rfl, rfl⟩
  · rw [hactive hc, hae h]
    exact hentered
  · rw [hinactive hc, hia hf hd, hmoved, hmza]
    refine ⟨rfl, rfl, rfl, fun r hr => ?_⟩
    simp only [hr]
    rfl
  · rw [hinactive hc, hic hf hd, hset, hsza]
    exact ⟨rfl, rfl, rfl, rfl⟩
  · rw [hactive hc, hac hf, hmoved, hmza]
    refine ⟨rfl, rfl, rfl, fun r hr => ?_⟩
    simp only [hr]
    rfl
  · obtain ⟨hlfdc, hreleased, hkept⟩ := hleft
    rw [hfdc] at hlfdc hreleased hkept
    rw [hinactive hc, hil h, hlfdc]
    refine ⟨rfl, rfl, rfl, fun r hr => ?_, fun o ho => by rw [hreleased o ho, hother]; rfl, fun o ho => by rw [hkept o ho, hout]⟩
    simp only [hr]
    rfl

end Sys2Proof.Machine

/-! PROOFS. The statement on the resets of a node: held in reset (R191), released with the loading of the image (R189), and
the loss of the backup supply (R190). -/

namespace Sys2Proof.Machine

/-! ## The Retained Store (R190) -/

theorem kept_of_supplied {r : RetainedStore} {mainPower : Bool} (h : mainPower = true ∨ r.supply = true) :
    r.kept mainPower = r := by
  unfold RetainedStore.kept
  rw [if_pos (by simpa using h)]

theorem kept_of_unsupplied {r : RetainedStore} {mainPower : Bool} (hpower : mainPower = false) (hsupply : r.supply = false) :
    r.kept mainPower = { r with checkOk := false } := by
  unfold RetainedStore.kept
  rw [if_neg (by simp [hpower, hsupply])]

theorem backupLost_of_mainPower {s : State} (h : s.mainPower = true) :
    s.backupLost = { s with rs := { s.rs with supply := false } } := by
  rw [State.backupLost, kept_of_supplied (.inl h)]

theorem backupLost_of_unpowered {s : State} (h : s.mainPower = false) :
    s.backupLost = { s with rs := { s.rs with supply := false, checkOk := false } } := by
  rw [State.backupLost, kept_of_unsupplied h rfl]

/-! ## Loading the image (R189, R196) -/

theorem flagBit_eq (b : Bool) (k : Nat) : flagBit b k = if b then 2 ^ k else 0 := by
  cases b <;> simp [flagBit]

/-- R196: a number below the weight of a bit and the bit itself set the bits of the number and that one. -/
theorem testBit_add_flagBit {n k : Nat} (h : n < 2 ^ k) (b : Bool) (j : Nat) :
    (n + flagBit b k).testBit j = (n.testBit j || (b && decide (k = j))) := by
  cases b with
  | false => simp [flagBit]
  | true =>
    have hor : 2 ^ k + n = 2 ^ k ||| n := by simpa using Nat.two_pow_add_eq_or_of_lt h 1
    rw [flagBit_eq, if_pos rfl, Nat.add_comm, hor, Nat.testBit_or, Nat.testBit_two_pow, Bool.or_comm, Bool.true_and]

theorem add_flagBit_lt {n k m : Nat} (h : n < 2 ^ k) (hkm : k < m) (b : Bool) : n + flagBit b k < 2 ^ m := by
  have hpow : 2 ^ (k + 1) ≤ 2 ^ m := Nat.pow_le_pow_right (by omega) hkm
  rw [flagBit_eq]
  split <;> omega

/-- R196: weights of ascending bits add up to the number that has exactly the bits of the parts that fail. -/
theorem testBit_foldl_flagBit {l : List (Bool × Nat)} (hl : l.Pairwise (fun p q => p.2 < q.2)) {n : Nat}
    (hn : ∀ p ∈ l, n < 2 ^ p.2) (j : Nat) :
    (l.foldl (fun n p => n + flagBit (!p.1) p.2) n).testBit j = (n.testBit j || l.any (fun p => !p.1 && decide (p.2 = j))) := by
  induction l generalizing n with
  | nil => simp
  | cons p l ih =>
    obtain ⟨hp, hl⟩ := List.pairwise_cons.mp hl
    have hlt : n < 2 ^ p.2 := hn p (by simp)
    rw [List.foldl_cons, ih hl fun q hq => add_flagBit_lt hlt (hp q hq) _, testBit_add_flagBit hlt, List.any_cons,
      Bool.or_assoc]

theorem partBits_pairwise : partBits.Pairwise (· < ·) := by decide

/-- R196: a bit of the factory mask stands for a part that fails. -/
theorem factoryMaskOf_getLsbD {good : List Bool} (hlen : good.length = 11) {j : Nat} (hj : j < 16) :
    (factoryMaskOf good).getLsbD j = (good.zip partBits).any (fun p => !p.1 && decide (p.2 = j)) := by
  have hsnd : (good.zip partBits).map Prod.snd = partBits := List.map_snd_zip (by simp [hlen, partBits])
  have hsorted : (good.zip partBits).Pairwise (fun p q => p.2 < q.2) := by
    rw [← List.pairwise_map, hsnd]
    exact partBits_pairwise
  rw [factoryMaskOf, BitVec.getLsbD_ofNat, testBit_foldl_flagBit hsorted fun p _ => Nat.two_pow_pos p.2]
  simp [hj]

theorem eq_of_length_eleven {l : List Bool} (h : l.length = 11) :
    ∃ a b c d e f g p q r t, l = [a, b, c, d, e, f, g, p, q, r, t] := by
  match l, h with
  | [a, b, c, d, e, f, g, p, q, r, t], _ => exact ⟨a, b, c, d, e, f, g, p, q, r, t, rfl⟩

/-- R196: the mask names a part exactly where it fails. -/
theorem factoryMaskOf_part {good : List Bool} (hlen : good.length = 11) (k : Fin 11) :
    (factoryMaskOf good).getLsbD (partBits.getD k.val 0) = !good.getD k.val false := by
  have hbit : ∀ k : Fin 11, partBits.getD k.val 0 < 16 := by decide
  rw [factoryMaskOf_getLsbD hlen (hbit k)]
  obtain ⟨a, b, c, d, e, f, g, p, q, r, t, rfl⟩ := eq_of_length_eleven hlen
  fin_cases k <;> simp [partBits]

/-- R196: the mask is 0 exactly where every part is loaded. -/
theorem factoryMaskOf_eq_zero {good : List Bool} (hlen : good.length = 11) : factoryMaskOf good = 0 ↔ good.all id = true := by
  constructor
  · intro hzero
    rw [List.all_eq_true]
    intro b hb
    obtain ⟨k, hk, rfl⟩ := List.getElem_of_mem hb
    have hbit := factoryMaskOf_part hlen ⟨k, hlen ▸ hk⟩
    rw [hzero] at hbit
    simpa [hk] using hbit
  · intro hall
    refine BitVec.eq_of_getLsbD_eq fun j hj => ?_
    have hgood : ∀ b ∈ good, b = true := by simpa using hall
    rw [factoryMaskOf_getLsbD hlen hj, List.any_eq_false.mpr fun p hp => by simp [hgood _ (List.of_mem_zip hp).1]]
    simp

namespace Image

variable (i : Image)

theorem length_partsGood : i.partsGood.length = 11 := rfl

/-- R189, R196: a part that passes is loaded, and one that fails takes its factory value and its bit of the mask. -/
theorem partLoaded_of_iff {α : Type} {pass : Prop} (k : Fin 11) (hpass : i.partsGood.getD k.val false = true ↔ pass)
    (value factory : α) :
    partLoaded (factoryMaskOf i.partsGood) (partBits.getD k.val 0) pass
      (if i.partsGood.getD k.val false then value else factory) value factory := by
  unfold partLoaded
  rw [factoryMaskOf_part i.length_partsGood k, ← hpass]
  cases i.partsGood.getD k.val false <;> simp

theorem recordsPass_node : recordsPass (fun _ => decNode) encNode #v[i.node] ↔ decNode (encNode i.node) = some i.node :=
  ⟨fun h => h 0, fun h k => by fin_cases k; exact h⟩

end Image

/-! ## The release of reset (R191) -/

namespace State.notifies

theorem derivePlan (s : State) (day : Word16) : s.notifies (s.derivePlan day) 1 := by
  unfold State.derivePlan
  dsimp only
  split
  · exact (of_line rfl fun _ _ _ => rfl).mono (by omega)
  · exact trans (n := 0) (m := 1) (of_line rfl fun _ _ _ => rfl) (raise _ _ _ _)

theorem bellStart (s : State) (day : Word16) (ms : Nat) : s.notifies (s.bellStart day ms) 1 :=
  (derivePlan s day).trans (m := 0) (of_line (by simp [State.bellStart]) fun _ _ _ => rfl)

theorem evaluateAll (s : State) : s.notifies s.evaluateAll 24 := by
  have hfold : ∀ (ls : List LineNo) (s : State), s.notifies (ls.foldl State.stepAt s) (3 * ls.length) := by
    intro ls
    induction ls with
    | nil => exact refl
    | cons k ls ih =>
      exact fun s => ((ite (refl s) (evaluate s k)).trans (ih _)).mono (by simp; omega)
  have heval : s.evaluateAll = allLines.foldl State.stepAt s := rfl
  rw [heval]
  exact (hfold allLines s).mono (by decide)

theorem startBackup (s : State) : s.notifies s.startBackup 26 := by
  unfold State.startBackup State.startEvent
  exact ((raise s _ _ _).trans (bellStart _ _ _)).trans (evaluateAll _)

theorem release (s : State) (key : Bool) (sweeps : Byte) (supply : Bool) :
    (s.fullResetValues key sweeps supply).notifies (s.release key sweeps supply) 27 := by
  unfold State.release
  dsimp only
  have hstart := (of_line (t := (s.fullResetValues key sweeps supply).scanFromLowest) (by simp)
    fun _ hs _ => counter_scanNext hs _ _).trans (raise _ .mgmt 1 (startArgs
      (s.fullResetValues key sweeps supply).scanFromLowest.mu.imageResult
      (s.fullResetValues key sweeps supply).scanFromLowest.mu.factoryMask
      (s.fullResetValues key sweeps supply).scanFromLowest.mu.storeValid))
  split
  · exact hstart.trans (startBackup _)
  · exact hstart.mono (by omega)

end State.notifies

/-- R191: what the scan's start, the notices and the start event leave of the full-reset values. -/
structure State.Started (v t : State) : Prop where
  held      : t.held = v.held
  mainPower : t.mainPower = v.mainPower
  tb        : t.tb = v.tb
  zm        : t.zm = v.zm
  bs        : ∃ plan hwm cursor, t.bs = { v.bs with plan := plan, hwm := hwm, cursor := cursor }
  za        : t.za = v.za
  pe        : t.pe = v.pe
  clocks    : t.cld.cfg = v.cld.cfg
  sups      : t.csv.cfg = v.csv.cfg
  fdc       : t.fdc = v.fdc
  mu        : t.mu = v.mu
  rs        : t.rs = v.rs
  image     : t.image = v.image

namespace State.Started

variable {s t u : State}

theorem trans (h : s.Started t) (h' : t.Started u) : s.Started u where
  held := h'.held.trans h.held
  mainPower := h'.mainPower.trans h.mainPower
  tb := h'.tb.trans h.tb
  zm := h'.zm.trans h.zm
  bs := by
    obtain ⟨_, _, _, hbs⟩ := h.bs
    obtain ⟨_, _, _, hbs'⟩ := h'.bs
    exact ⟨_, _, _, by rw [hbs', hbs]⟩
  za := h'.za.trans h.za
  pe := h'.pe.trans h.pe
  clocks := h'.clocks.trans h.clocks
  sups := h'.sups.trans h.sups
  fdc := h'.fdc.trans h.fdc
  mu := h'.mu.trans h.mu
  rs := h'.rs.trans h.rs
  image := h'.image.trans h.image

theorem scanFromLowest (s : State) : s.Started s.scanFromLowest := by
  constructor
  case bs => exact ⟨s.bs.plan, s.bs.hwm, s.bs.cursor, by simp⟩
  all_goals simp

theorem raise (s : State) (c : NoticeClass) (k : Nat) (a : List Byte) : s.Started (s.raise c k a) := by
  constructor
  case bs => exact ⟨s.bs.plan, s.bs.hwm, s.bs.cursor, by simp⟩
  all_goals simp

theorem bellStart (s : State) (day : Word16) (ms : Nat) : s.Started (s.bellStart day ms) := by
  constructor
  case bs => exact ⟨_, _, _, bellStart_bs s day ms⟩
  all_goals simp

theorem evaluateAll (s : State) : s.Started s.evaluateAll := by
  constructor
  case bs => exact ⟨s.bs.plan, s.bs.hwm, s.bs.cursor, by simp⟩
  all_goals simp

theorem startBackup (s : State) : s.Started s.startBackup := by
  unfold State.startBackup State.startEvent
  exact ((raise s _ _ _).trans (bellStart _ _ _)).trans (evaluateAll _)

theorem release (s : State) (key : Bool) (sweeps : Byte) (supply : Bool) :
    (s.fullResetValues key sweeps supply).Started (s.release key sweeps supply) := by
  unfold State.release
  dsimp only
  split
  · exact ((scanFromLowest _).trans (raise _ _ _ _)).trans (startBackup _)
  · exact (scanFromLowest _).trans (raise _ _ _ _)

end State.Started

/-- R189: the node works with the settings given. -/
structure State.HoldsSettings (t : State) (i : Image) : Prop where
  addr     : t.mu.addr = i.addr
  node     : t.mu.node = i.node
  sched    : t.bs.bankA = i.sched
  calendar : t.bs.calendar = i.calendar
  week     : t.bs.week = i.week
  windows  : t.zm.windows = i.windows
  attrs    : t.zm.attrs = i.attrs
  tones    : t.za.tones = i.tones
  clocks   : t.cld.cfg = i.clocks
  sups     : t.csv.cfg = i.sups
  drills   : t.fdc.programs = i.drills

section Released

variable (s : State) (key : Bool) (sweeps : Byte) (supply : Bool)

/-- R189: the release leaves the settings loaded in force, with the image result and the mask. -/
theorem release_settings : (s.release key sweeps supply).HoldsSettings (loadImage s.image).1 := by
  have h := State.Started.release s key sweeps supply
  obtain ⟨_, _, _, hbs⟩ := h.bs
  exact ⟨by rw [h.mu]; rfl, by rw [h.mu]; rfl, by rw [hbs]; rfl, by rw [hbs]; rfl, by rw [hbs]; rfl, by rw [h.zm]; rfl,
    by rw [h.zm]; rfl, by rw [h.za]; rfl, by rw [h.clocks]; rfl, by rw [h.sups]; rfl, by rw [h.fdc]; rfl⟩

theorem release_imageResult : (s.release key sweeps supply).mu.imageResult = (loadImage s.image).2.1 := by
  rw [(State.Started.release s key sweeps supply).mu]
  rfl

theorem release_factoryMask : (s.release key sweeps supply).mu.factoryMask = (loadImage s.image).2.2 := by
  rw [(State.Started.release s key sweeps supply).mu]
  rfl

theorem release_tb :
    (s.release key sweeps supply).tb = Timebase.started (loadImage s.image).1.node.linkDelay s.rs :=
  (State.Started.release s key sweeps supply).tb

theorem release_rs :
    (s.release key sweeps supply).rs = { s.rs.checked (loadImage s.image).1.clocks with supply := supply } :=
  (State.Started.release s key sweeps supply).rs

/-- R41, R191: after the release no port has a link, and UP normal alone holds frames, the notices of the start. -/
theorem release_line :
    ∃ notices, (s.release key sweeps supply).line = { Line.reset with up := { Port.reset with normal := notices } } := by
  obtain ⟨notices, -, hline, -⟩ := State.notifies.release s key sweeps supply
  exact ⟨notices, hline⟩

/-- R96: after the release every output is as a reset leaves it. -/
theorem out_release (o : Output) : (s.release key sweeps supply).out o = OutputState.reset := by
  simp [State.out, (State.Started.release s key sweeps supply).za, State.fullResetValues]

end Released

theorem started_us (d : Nat) (r : RetainedStore) : (Timebase.started d r).us = 0 := by
  unfold Timebase.started
  split <;> rfl

/-- R20: campus time after a full reset with a valid store, and with one that is not. -/
theorem started_of_valid (d : Nat) {r : RetainedStore} (h : r.valid = true) :
    (Timebase.started d r).quality = .backup ∧ (Timebase.started d r).day = r.day ∧
      (Timebase.started d r).ms = r.second * 1000 := by
  rw [Timebase.started, if_pos h]
  exact ⟨rfl, rfl, rfl⟩

theorem started_of_invalid (d : Nat) {r : RetainedStore} (h : r.valid = false) :
    (Timebase.started d r).quality = .invalid ∧ (Timebase.started d r).day = 0 ∧ (Timebase.started d r).ms = 0 := by
  rw [Timebase.started, if_neg (by simp [h])]
  exact ⟨rfl, rfl, rfl⟩

/-- R190: a store that fails its check is begun anew. -/
theorem checked_of_invalid (clocks : Vector ClockCfg 8) {r : RetainedStore} (h : r.valid = false) :
    (r.checked clocks).checkOk = true ∧ (r.checked clocks).timeWritten = false ∧ (r.checked clocks).day = 0 ∧
      (r.checked clocks).second = 0 := by
  rw [RetainedStore.checked, if_neg (by simp [h])]
  exact ⟨rfl, rfl, rfl, rfl⟩

/-! ## Held in reset (R191) -/

theorem hold_rs (s : State) (cause : ResetCause) : (s.hold cause).rs = s.rs.kept (s.hold cause).mainPower := rfl

theorem clockLine_hold (s : State) (cause : ResetCause) (k : LineNo) :
    (s.hold cause).clockLine k = (s.clockLine k).held := by
  simp [State.clockLine, State.hold]

theorem out_hold (s : State) (cause : ResetCause) (o : Output) : (s.hold cause).out o = OutputState.reset := by
  simp [State.out, State.hold]

/-- Settles O56, by what the start of the scan, the notices and the start event leave of the full-reset values, and by the
bits of the factory mask part by part. -/
theorem resetsTaken : Obligations.ResetsTaken := by
  unfold Obligations.ResetsTaken
  intro s dt
  have hstore : (s.elapse dt).rs = s.rs := by simp
  refine ⟨fun w => ⟨(s.elapse dt).hold w, rfl, rfl, rfl, rfl, State.callsLegal.call_hold _ w,
    fun k => by rw [clockLine_hold]; rfl, out_hold _ w, ?_, ?_, ?_, ?_, ?_⟩,
    fun key sweeps supply => ⟨(s.elapse dt).release key sweeps supply, rfl, ?_⟩, fun hpower => ?_, fun hpower => ?_⟩
  · rintro rfl
    simp [State.hold]
  · rintro rfl
    simp [State.hold]
  · intro h
    rw [hold_rs, kept_of_supplied (by simpa using h)]
    simp
  · intro hpower hsupply
    rw [hold_rs, kept_of_unsupplied hpower (by simpa using hsupply)]
    simp
  · simp [State.hold]
  · have hstart := State.Started.release (s.elapse dt) key sweeps supply
    have hset := release_settings (s.elapse dt) key sweeps supply
    have hresult := release_imageResult (s.elapse dt) key sweeps supply
    have hmask := release_factoryMask (s.elapse dt) key sweeps supply
    have htb := release_tb (s.elapse dt) key sweeps supply
    have hrs := release_rs (s.elapse dt) key sweeps supply
    obtain ⟨notices, hline⟩ := release_line (s.elapse dt) key sweeps supply
    have hcalls := State.callsLegal.call_release (s.elapse dt) key sweeps supply
    have houts := out_release (s.elapse dt) key sweeps supply
    obtain ⟨_, _, _, hbs⟩ := hstart.bs
    have himage : (s.elapse dt).image = s.image := by simp
    rw [himage] at hset hresult hmask htb hrs
    rw [hstore] at htb hrs
    refine ⟨hstart.held, hstart.mainPower, by rw [hline]; rfl, by rw [hline]; rfl, by rw [hline]; rfl, hcalls, houts,
      by rw [hstart.zm]; rfl, by rw [hstart.fdc]; rfl, by rw [hstart.fdc]; rfl, by rw [hstart.fdc]; rfl, by rw [hbs]; rfl,
      by rw [hbs]; rfl, by rw [hbs]; rfl, hstart.image.trans himage, by rw [htb, started_us], by rw [hrs], ?_, ?_, ?_, ?_⟩
    · intro hcheck hwritten
      rw [htb]
      exact started_of_valid _ (by simp [RetainedStore.valid, hcheck, hwritten])
    · intro h
      have hinvalid : s.rs.valid = false := by
        rw [RetainedStore.valid, Bool.and_eq_false_iff]
        exact h
      rw [htb, hrs]
      obtain ⟨hquality, hday, hms⟩ := started_of_invalid (loadImage s.image).1.node.linkDelay hinvalid
      exact ⟨hquality, hday, hms, checked_of_invalid _ hinvalid⟩
    · intro h
      rw [h] at hset hresult
      exact ⟨hset.addr, hset.node, hset.sched, hresult⟩
    · intro img h
      dsimp only
      rw [h] at hset hresult hmask
      have hresult' : ((s.elapse dt).release key sweeps supply).mu.imageResult =
        if img.partsGood.all id then .loaded else .someFactory := hresult
      have hmask' : ((s.elapse dt).release key sweeps supply).mu.factoryMask = factoryMaskOf img.partsGood := hmask
      rw [hmask', hresult', hset.addr, hset.node, hset.sched, hset.calendar, hset.week, hset.windows, hset.attrs, hset.tones,
        hset.clocks, hset.sups, hset.drills]
      refine ⟨img.partLoaded_of_iff 0 (by simp [Image.partsGood]) _ _,
        img.partLoaded_of_iff 1 (by simp [Image.partsGood, spaceGood_iff]) _ _,
        img.partLoaded_of_iff 2 (by simp [Image.partsGood, spaceGood_iff]) _ _,
        img.partLoaded_of_iff 3 (by simp [Image.partsGood, spaceGood_iff]) _ _,
        img.partLoaded_of_iff 4 (by simp [Image.partsGood, spaceGood_iff]) _ _,
        img.partLoaded_of_iff 5 (by simp [Image.partsGood, spaceGood_iff]) _ _,
        img.partLoaded_of_iff 6 (by simp [Image.partsGood, spaceGood_iff]) _ _,
        img.partLoaded_of_iff 7 (by simp [Image.partsGood, spaceGood_iff]) _ _,
        img.partLoaded_of_iff 8 (by simp [Image.partsGood, spaceGood_iff]) _ _,
        img.partLoaded_of_iff 9 (by simp [Image.partsGood, spaceGood_iff]) _ _,
        img.partLoaded_of_iff 10 (by simp [Image.partsGood, spaceGood_iff, Image.recordsPass_node]) _ _, fun hm => ?_,
        fun hm => ?_⟩
      · rw [if_pos ((factoryMaskOf_eq_zero img.length_partsGood).mp hm)]
      · rw [if_neg fun hall => hm ((factoryMaskOf_eq_zero img.length_partsGood).mpr hall)]
  · show Host.Outcome.next (s.elapse dt).backupLost = _
    rw [backupLost_of_unpowered (by simpa using hpower), hstore]
  · show Host.Outcome.next (s.elapse dt).backupLost = _
    rw [backupLost_of_mainPower (by simpa using hpower), hstore]

end Sys2Proof.Machine
